-- ==== Sys2Proof/Word.lean ====
section
/-! DEFINITION. The word types of the FrameDecoder block: one frame element (00_scope.md R4, BYTE_W = 8) and the
`in_frame` bus (10_state.md R19, 144 bits). Everything is unsigned (10_state.md R12). -/

namespace Sys2Proof

/-- One element of a frame: 8 bits, unsigned, 0 to 255 (R4, R12). -/
abbrev Byte := BitVec 8

/-- The `in_frame` port: `frame[k]` on bits `[8k+7 : 8k]`, k = 0..17 (R19, R50). -/
abbrev Bus := BitVec 144

end Sys2Proof
end

