-- ==== Sys2Proof/Syntax.lean ====
section
/-! DEFINITION. The syntax of the block: the ten lanes, their four formats, the operand of a transaction, and `Instr`
with one constructor per row of spec/opcode_table.json (ten lanes and DECODE).

A lane mnemonic is applied to its own bytes in ascending offset order (30_encoding.md R60). The hardware runs a lane
only inside DECODE (R51); a lane constructor is the rule of that one lane (R70 to R87). -/

namespace Sys2Proof

/-- The ten lanes, in offset order (30_encoding.md R50, R52). A lane is also the name of its one result field (R13). -/
inductive Lane where
  | info | temp | hum | airp | accel | batt | cput | swh | awh | aper
  deriving DecidableEq, Repr

/-- The four lane formats (30_encoding.md R52). -/
inductive Format where
  /-- One byte passed through. -/
  | raw8
  /-- Whole byte plus fractional byte over 100. -/
  | fix100
  /-- Two bytes composed little-endian, then divided by a constant. -/
  | le16s
  /-- Two bytes composed little-endian, unscaled. -/
  | le16
  deriving DecidableEq, Repr

/-- The rows of spec/opcode_table.json: a row for each lane and the row `DECODE`. -/
inductive Row where
  | lane (l : Lane)
  | decode
  deriving DecidableEq, Repr

/-- The operand `(frame, len)` of a transaction as it reaches the block: the number on `in_len` and the 18 byte
positions of `in_frame` (10_state.md R19, 20_memory.md R40). -/
structure Operand where
  /-- `len`, as presented on `in_len` (20_memory.md R31). -/
  len : Nat
  /-- The bytes at offsets 0 to 17; positions at and above `len` carry no meaning (R19). -/
  bus : Bus
  deriving DecidableEq, Repr

/-- One constructor per row of spec/opcode_table.json. -/
inductive Instr where
  /-- INFO v (R70): frame[0]. -/
  | info (v : Byte)
  /-- TEMP w, f (R75): frame[1] whole, frame[2] frac. -/
  | temp (w f : Byte)
  /-- HUM w, f (R76): frame[3] whole, frame[4] frac. -/
  | hum (w f : Byte)
  /-- AIRP lo, hi (R80): frame[5] low, frame[6] high. -/
  | airp (lo hi : Byte)
  /-- ACCEL v (R71): frame[7]. -/
  | accel (v : Byte)
  /-- BATT lo, hi (R81): frame[8] low, frame[9] high. -/
  | batt (lo hi : Byte)
  /-- CPUT w, f (R77): frame[10] whole, frame[11] frac. -/
  | cput (w f : Byte)
  /-- SWH lo, hi (R85): frame[12] low, frame[13] high. -/
  | swh (lo hi : Byte)
  /-- AWH lo, hi (R86): frame[14] low, frame[15] high. -/
  | awh (lo hi : Byte)
  /-- APER lo, hi (R87): frame[16] low, frame[17] high. -/
  | aper (lo hi : Byte)
  /-- DECODE (R90): one transaction, with `len` beside the 144-bit word. -/
  | decode (len : Nat) (frame : Bus)
  deriving DecidableEq, Repr

/-- The row of the opcode table an instruction stands on. -/
def Instr.row : Instr → Row
  | .info _ => .lane .info
  | .temp _ _ => .lane .temp
  | .hum _ _ => .lane .hum
  | .airp _ _ => .lane .airp
  | .accel _ => .lane .accel
  | .batt _ _ => .lane .batt
  | .cput _ _ => .lane .cput
  | .swh _ _ => .lane .swh
  | .awh _ _ => .lane .awh
  | .aper _ _ => .lane .aper
  | .decode _ _ => .decode

end Sys2Proof
end

