-- ==== Sys2Proof/Config.lean ====
section
/-! DEFINITION. What an implementation of the block fixes and the spec leaves OPEN (00_scope.md R5, 92_eei_decisions.md
D4, D9, D10; 93_implementation_defined.md U9: "arguments of a port-level model").

The three values are plain data that State carries unchanged, so that every claim is about every value of them and a
run can still be evaluated. The block has no free value: what the spec leaves to "any value" on the wires is ABSENT in
the model (10_state.md R20), and the unused bytes of a short frame are an argument of `Machine.presentFrame`. -/

namespace Sys2Proof

/-- The OPEN parameters of one implementation of the block. -/
structure Params where
  /-- LEN_W, the width of the port `in_len`: any integer at least 5 (R5, D4). -/
  lenW : Nat
  /-- LATENCY, cycles from operand to result: any natural number, 0 in the reference block (R126, D10). -/
  latency : Nat
  /-- Whether the implementation has the port `rst`; the reference block has none (R120, D9). -/
  hasRst : Bool
  deriving DecidableEq, Repr

/-- The one limit the spec sets on the parameters: LEN_W ≥ 5 (R5, R31). -/
abbrev Params.wf (p : Params) : Prop := 5 ≤ p.lenW

/-- The reference block: LATENCY = 0 and no `rst` (R120, R126), with the LEN_W = 8 of the worked examples (D4).
DESIGN CHOICE, log entry 2: LEN_W is open; only `State.reset` takes this value and no claim rests on it. -/
def Params.reference : Params := { lenW := 8, latency := 0, hasRst := false }

end Sys2Proof
end

