-- ==== Sys2Proof/WellFormed.lean ====
section
/-! DEFINITION. Which instructions can be written on the ports of an implementation.

Every byte value is legal at every offset (30_encoding.md R58) and a byte outside 0 to 255 cannot be written down
(R59), so the one check is that the `len` of a DECODE is a number the LEN_W wires of `in_len` can carry
(10_state.md R19, 20_memory.md R31). A short frame is well formed: it has an outcome, MalformedFrame (R59). -/

namespace Sys2Proof

/-- `n` is a value of the LEN_W-bit port `in_len` (R19, R31). -/
def Params.onLenPort (p : Params) (n : Nat) : Bool := decide (n < 2 ^ p.lenW)

/-- The instruction can be presented to an implementation with parameters `p`. -/
def Instr.wellFormed (p : Params) : Instr → Bool
  | .info _ => true
  | .temp _ _ => true
  | .hum _ _ => true
  | .airp _ _ => true
  | .accel _ => true
  | .batt _ _ => true
  | .cput _ _ => true
  | .swh _ _ => true
  | .awh _ _ => true
  | .aper _ _ => true
  | .decode len _ => p.onLenPort len

end Sys2Proof
end

