-- ==== Sys2Proof/Decode.lean ====
section
/-! DEFINITION. The frame format of 30_encoding.md R50, read and written: the byte positions of `in_frame`, the
address map of the lanes, the decoder and, after it, the encoder.

No bit of a frame selects anything (R51): every row of the opcode table has mask 0 and matches every 144-bit word.
What the block takes from an operand is therefore always DECODE (`decodeFrame`); what a LANE takes from the same word
is given by its row (`decodeRow`), and "a decoder built from the table alone applies every row to every frame"
(`decodeEveryRow`). -/

namespace Sys2Proof

/-! ### Bytes of the bus -/

/-- `frame[k]`, on bits `[8k+7 : 8k]` of `in_frame` (R50). -/
def busByte (bus : Bus) (k : Nat) : Byte := bus.extractLsb' (8 * k) 8

/-- Bytes in offset order put on the bus: the first on bits [7:0], the next on [15:8], and so on. Bytes past offset 17
do not reach the bus (20_memory.md R40); positions past the end of the list are 0. -/
def packBus : List Byte → Bus
  | [] => 0
  | b :: bs => b.setWidth 144 ||| (packBus bs <<< 8)

/-- Bytes put on the bus from offset `a` on, every other position 0. -/
def placeAt (a : Nat) (bs : List Byte) : Bus := packBus (List.replicate a 0 ++ bs)

/-! ### The address map (20_memory.md R39) -/

/-- The number of bytes the block interprets (30_encoding.md R50: the first 18 and no others). -/
def frameBytes : Nat := 18

/-- All ten lanes, in offset order. -/
def Lane.all : List Lane := [.info, .temp, .hum, .airp, .accel, .batt, .cput, .swh, .awh, .aper]

/-- The format of a lane (30_encoding.md R52). -/
def Lane.format : Lane → Format
  | .info => .raw8
  | .temp => .fix100
  | .hum => .fix100
  | .airp => .le16s
  | .accel => .raw8
  | .batt => .le16s
  | .cput => .fix100
  | .swh => .le16
  | .awh => .le16
  | .aper => .le16

/-- How many operand bytes a format takes (R52). -/
def Format.size : Format → Nat
  | .raw8 => 1
  | .fix100 => 2
  | .le16s => 2
  | .le16 => 2

/-- The offsets a lane reads, ascending: low or whole byte first (R12, R32, R33, R39). -/
def Lane.offsets : Lane → List Nat
  | .info => [0]
  | .temp => [1, 2]
  | .hum => [3, 4]
  | .airp => [5, 6]
  | .accel => [7]
  | .batt => [8, 9]
  | .cput => [10, 11]
  | .swh => [12, 13]
  | .awh => [14, 15]
  | .aper => [16, 17]

/-- The offsets whose bits carry a pattern letter in a row's `encoding` string (R51): a lane's own bytes; all 18 bytes
for DECODE. -/
def Row.offsets : Row → List Nat
  | .lane l => l.offsets
  | .decode => List.range frameBytes

/-! ### Decoding -/

/-- Why a word is not an instruction. -/
inductive DecodeError where
  /-- A lane's row needs the whole 18-byte frame; in a shorter one no lane reads any byte (20_memory.md R42). -/
  | shortFrame
  /-- The number given as `in_len` does not fit the LEN_W wires (10_state.md R19). -/
  | lenNotOnPort
  deriving DecidableEq, Repr

/-- The lane instruction a bus value holds: the lane's own bytes, and no others (R50, R51). -/
def laneOfBus (bus : Bus) : Lane → Instr
  | .info => .info (busByte bus 0)
  | .temp => .temp (busByte bus 1) (busByte bus 2)
  | .hum => .hum (busByte bus 3) (busByte bus 4)
  | .airp => .airp (busByte bus 5) (busByte bus 6)
  | .accel => .accel (busByte bus 7)
  | .batt => .batt (busByte bus 8) (busByte bus 9)
  | .cput => .cput (busByte bus 10) (busByte bus 11)
  | .swh => .swh (busByte bus 12) (busByte bus 13)
  | .awh => .awh (busByte bus 14) (busByte bus 15)
  | .aper => .aper (busByte bus 16) (busByte bus 17)

/-- One row of the opcode table applied to an operand. -/
def decodeRow (r : Row) (op : Operand) : Except DecodeError Instr :=
  match r with
  | .lane l => if op.len < frameBytes then .error .shortFrame else .ok (laneOfBus op.bus l)
  | .decode => .ok (.decode op.len op.bus)

/-- Every row of the table applied to the operand, in the table's order (R51). -/
def decodeEveryRow (op : Operand) : List (Except DecodeError Instr) :=
  (Lane.all.map fun l => decodeRow (.lane l) op) ++ [decodeRow .decode op]

/-- What the block takes from its ports: the transaction DECODE, whatever the bytes are (R51, R58), rejecting by name
only a length its port cannot carry. -/
def decodeFrame (p : Params) (op : Operand) : Except DecodeError Instr :=
  if p.onLenPort op.len then decodeRow .decode op else .error .lenNotOnPort

/-- The number the host puts on `in_len` for a frame of `len` bytes: `min(len, 2^LEN_W - 1)` (20_memory.md R31). -/
def saturateLen (p : Params) (len : Nat) : Nat := min len (2 ^ p.lenW - 1)

/-- A frame given as bytes, as an operand of the block: its saturated length (R31) and its first 18 bytes (R40). The
positions a short frame does not have are 0 here; they influence no outcome (U11; DESIGN CHOICE, log entry 5). -/
def operandOfBytes (p : Params) (bs : List Byte) : Operand :=
  { len := saturateLen p bs.length, bus := packBus bs }

/-- The decoder on any bytes. -/
def decodeBytes (p : Params) (bs : List Byte) : Except DecodeError Instr := decodeFrame p (operandOfBytes p bs)

/-- The operand that stands for a word of the opcode table: its bytes in offset order, zeros above `nbits` up to the
18 bytes of a frame, and `in_len` their number (at least 18; log entry 15). -/
def tableOperand (p : Params) (nbits w : Nat) : Operand :=
  { len := saturateLen p (max frameBytes (nbits / 8)), bus := BitVec.ofNat 144 (w % 2 ^ nbits) }

/-- The instruction the block's decoder reads from a word numbered as the opcode table numbers it, by the reference
parameters. All eleven rows match every word (R51), and what the block runs is the transaction, DECODE (DEDUCED, log
entry 3). -/
def decodeTableWord (nbits w : Nat) : Option Instr :=
  (decodeFrame Params.reference (tableOperand Params.reference nbits w)).toOption

/-! ### Encoding -/

/-- The operand that carries an instruction, by its row of the table: a lane's own bytes at their offsets, the bits the
lane does not read 0, in a frame of the least accepted length 18 (DESIGN CHOICE, log entry 15); DECODE with all its 18
bytes and its `len`. -/
def encode : Instr → Operand
  | .info v => ⟨frameBytes, placeAt 0 [v]⟩
  | .temp w f => ⟨frameBytes, placeAt 1 [w, f]⟩
  | .hum w f => ⟨frameBytes, placeAt 3 [w, f]⟩
  | .airp lo hi => ⟨frameBytes, placeAt 5 [lo, hi]⟩
  | .accel v => ⟨frameBytes, placeAt 7 [v]⟩
  | .batt lo hi => ⟨frameBytes, placeAt 8 [lo, hi]⟩
  | .cput w f => ⟨frameBytes, placeAt 10 [w, f]⟩
  | .swh lo hi => ⟨frameBytes, placeAt 12 [lo, hi]⟩
  | .awh lo hi => ⟨frameBytes, placeAt 14 [lo, hi]⟩
  | .aper lo hi => ⟨frameBytes, placeAt 16 [lo, hi]⟩
  | .decode len frame => ⟨len, frame⟩

end Sys2Proof
end

