-- ==== Sys2Proof/Machine/State.lean ====
section
/-! DEFINITION. Plain data: the result record, the outcome of a transaction, the ports, and the state of one instance
of the block at the boundary of a clock cycle.

The block has no architectural state (10_state.md R10). What State holds is the boundary of 10_state.md R19 (the ports,
cycle by cycle), the transactions in flight in an implementation with LATENCY > 0 (R16, R22, R126), the result fields
while one transaction computes them (R11, R13), and the implementation's parameters. A read-only operand and a
delivered outcome are port values. DESIGN CHOICE, log entries 1, 2, 4, 6 and 11: the fields of State are the model's own
way to hold a block that retains nothing. -/

namespace Sys2Proof.Machine

/-! ### Results -/

/-- A scaled result on its two ports: the pair `(int, fr)` (10_state.md R13, 92_eei_decisions.md D5, D6). -/
structure Scaled (intW frW : Nat) where
  int : BitVec intW
  fr : BitVec frW
  deriving DecidableEq, Repr

/-- The record of a successful transaction: ten fields, with the port widths of 10_state.md R13. -/
structure Record where
  /-- Info, `out_info`. -/
  info : BitVec 8
  /-- Temperature, `out_temp_int`, `out_temp_fr`, D = 100. -/
  temperature : Scaled 9 7
  /-- Humidity, `out_hum_int`, `out_hum_fr`, D = 100. -/
  humidity : Scaled 9 7
  /-- AirPressure, `out_airp_int`, `out_airp_fr`, D = 10. -/
  airPressure : Scaled 13 4
  /-- Acceleration, `out_accel`. -/
  acceleration : BitVec 8
  /-- Battery, `out_batt_int`, `out_batt_fr`, D = 100. -/
  battery : Scaled 10 7
  /-- CPU_temperature, `out_cput_int`, `out_cput_fr`, D = 100. -/
  cpuTemperature : Scaled 9 7
  /-- Significant_wave_height, `out_swh`. -/
  significantWaveHeight : BitVec 16
  /-- Average_wave_height, `out_awh`. -/
  averageWaveHeight : BitVec 16
  /-- Average_period, `out_aper`. -/
  averagePeriod : BitVec 16
  deriving DecidableEq, Repr

/-- The one error: one constructor and no payload (60_exceptions.md R101, R102; 92_eei_decisions.md D7). -/
inductive TxError where
  | malformedFrame
  deriving DecidableEq, Repr

/-- The outcome of a transaction: two cases, no third and no partial record (10_state.md R18). -/
inductive TxOutcome where
  | ok (r : Record)
  | error (e : TxError)
  deriving DecidableEq, Repr

/-- The result fields of the transaction being computed, each absent until its lane has written it (10_state.md R11,
R13). They live for one transaction only. -/
structure Fields where
  info : Option (BitVec 8)
  temperature : Option (Scaled 9 7)
  humidity : Option (Scaled 9 7)
  airPressure : Option (Scaled 13 4)
  acceleration : Option (BitVec 8)
  battery : Option (Scaled 10 7)
  cpuTemperature : Option (Scaled 9 7)
  significantWaveHeight : Option (BitVec 16)
  averageWaveHeight : Option (BitVec 16)
  averagePeriod : Option (BitVec 16)
  deriving DecidableEq, Repr

/-- No field written: the result fields outside a transaction. -/
def Fields.empty : Fields :=
  { info := none, temperature := none, humidity := none, airPressure := none, acceleration := none, battery := none,
    cpuTemperature := none, significantWaveHeight := none, averageWaveHeight := none, averagePeriod := none }

/-! ### Input ports -/

/-- The input ports in one clock cycle (10_state.md R19), and `rst` (R22). -/
structure InPorts where
  /-- `rst`; without meaning where the implementation has no such port. -/
  rst : Bool
  /-- `in_valid`: a transaction is presented in this cycle. -/
  inValid : Bool
  /-- `in_len`: the number on its LEN_W wires. -/
  inLen : Nat
  /-- `in_frame`. -/
  inFrame : Bus
  deriving DecidableEq, Repr

/-- A cycle in which the host presents nothing. The other ports are ignored (R19, D17). -/
def InPorts.idle : InPorts := { rst := false, inValid := false, inLen := 0, inFrame := 0 }

/-! ### State, faults, refusals -/

structure State where
  /-- The implementation's OPEN parameters (00_scope.md R5); nothing changes them. -/
  params : Params
  /-- What the host puts on the input ports, cycle by cycle, the coming cycle first; past its end the host presents
  nothing. -/
  inputs : List InPorts
  /-- The result fields of the current transaction (10_state.md R13); all absent between transactions. -/
  fields : Fields
  /-- What was presented in the last LATENCY cycles, oldest first; none for a cycle without a transaction (R126). -/
  inflight : List (Option TxOutcome)
  /-- The output ports in the cycle just done: none is `out_valid = 0`, else the outcome delivered (R19, R20). -/
  out : Option TxOutcome
  deriving DecidableEq, Repr

/-- What stops the machine. The block's only error, MalformedFrame, is no fault of the model: it is an outcome, and the
block goes on (60_exceptions.md R106; DEDUCED, log entry 7). Both faults below are proved unreachable from DECODE; they stand so that a read
of an offset that does not exist, or a missing field, could never turn into a value. -/
inductive Fault where
  /-- A lane reads an offset that does not exist, `k ≥ len` (20_memory.md R42). Raised by the lanes' reads inside
  DECODE, which the length guard keeps from ever happening. Safe. -/
  | offsetAbsent
  /-- A record is delivered with a field that no lane has written (44_decode.md R92 forbids it). Raised by DECODE's
  delivery, never with all ten lanes run. Safe. -/
  | fieldUnwritten
  deriving DecidableEq, Repr

/-- What the model gives no meaning to. -/
inductive Refusal where
  /-- An instruction without a meaning in exec; no arm uses it. Safe. -/
  | notModelled (mnemonic : String)
  /-- The operand on the ports decodes to no instruction: its `in_len` is no LEN_W-bit number, so it cannot stand on the
  wires (20_memory.md R31; the treatment of 93_implementation_defined.md U7). Raised by step. Safe. -/
  | undecodable (e : DecodeError)
  deriving DecidableEq, Repr

/-- The machine right after reset (10_state.md R22): no outcome is delivered (`out_valid = 0`), nothing is in flight, no
result field has a value, and the host has presented nothing yet (DESIGN CHOICE, log entry 4). The parameters are the
reference block's (DESIGN CHOICE, log entry 2). -/
def State.reset : State :=
  { params := Params.reference, inputs := [], fields := Fields.empty, inflight := [], out := none }

end Sys2Proof.Machine
end

