-- ==== Sys2Proof/Machine/Flags.lean ====
section
/-! DEFINITION. The one status indication, `malformed` (10_state.md R17), and the comparison that decides it. The block
has no condition codes and no carry, overflow, zero or sign flag. -/

namespace Sys2Proof.Machine

/-- FRAME_MIN, the least frame length accepted (00_scope.md R4). -/
def frameMin : Nat := 18

/-- The length guard of DECODE: `len < 18`, not `≤` (44_decode.md R90). -/
def lengthGuard (len : Nat) : Bool := decide (len < frameMin)

/-- The `malformed` indication of an outcome: part of the outcome, not stored (R17). -/
def TxOutcome.malformed : TxOutcome → Bool
  | .ok _ => false
  | .error .malformedFrame => true

end Sys2Proof.Machine
end

