-- ==== Sys2Proof/Machine/Operands.lean ====
section
/-! DEFINITION. Operand assembly (30_encoding.md R53 to R56) and the exact value of a result (10_state.md R13). Operands
become natural numbers, the result is computed exactly and narrowed to its port at the end; no narrowing ever loses a
value (44_decode.md R93). -/

namespace Sys2Proof.Machine

/-- The divisor of the fractional byte of a FIX100 lane (00_scope.md R4). -/
def fracDivisor : Nat := 100

/-- The divisor of AirPressure (R4, 42_le16_scaled.md R80). -/
def airpDivisor : Nat := 10

/-- The divisor of Battery (R4, 42_le16_scaled.md R81). -/
def battDivisor : Nat := 100

/-- A RAW8 byte on its 8-bit port, zero-extended: the same number (40_raw8.md). -/
def raw8 (v : Byte) : BitVec 8 := BitVec.ofNat 8 v.toNat

/-- `compose16(lo, hi) = lo + 256*hi` (R53). -/
def compose16 (lo hi : Byte) : BitVec 16 := BitVec.ofNat 16 (lo.toNat + 256 * hi.toNat)

/-- `fix100(w, f) = (w + f div 100, f mod 100)` (R54); the fractional byte is not range-checked. -/
def fix100 (w f : Byte) : Scaled 9 7 :=
  { int := BitVec.ofNat 9 (w.toNat + f.toNat / fracDivisor), fr := BitVec.ofNat 7 (f.toNat % fracDivisor) }

/-- `scale_D(n) = (n div D, n mod D)` on ports of the given widths (R55). -/
def scale (d intW frW : Nat) (n : BitVec 16) : Scaled intW frW :=
  { int := BitVec.ofNat intW (n.toNat / d), fr := BitVec.ofNat frW (n.toNat % d) }

/-! ### The numbers a record denotes -/

/-- The exact value of a pair over its divisor: `int + fr/D` (R13). -/
def Scaled.value {a b : Nat} (d : Nat) (x : Scaled a b) : ℚ := (x.int.toNat : ℚ) + (x.fr.toNat : ℚ) / (d : ℚ)

/-- The divisor over which a lane's fraction port counts; 1 for an unscaled field, which has no fraction port (R13). -/
def laneDivisor : Lane → Nat
  | .info => 1
  | .temp => fracDivisor
  | .hum => fracDivisor
  | .airp => airpDivisor
  | .accel => 1
  | .batt => battDivisor
  | .cput => fracDivisor
  | .swh => 1
  | .awh => 1
  | .aper => 1

/-- The numbers on a field's ports: `(int, fr)` of a scaled field, `(value, 0)` of an integer field (R13). -/
def Record.ports (r : Record) : Lane → Nat × Nat
  | .info => (r.info.toNat, 0)
  | .temp => (r.temperature.int.toNat, r.temperature.fr.toNat)
  | .hum => (r.humidity.int.toNat, r.humidity.fr.toNat)
  | .airp => (r.airPressure.int.toNat, r.airPressure.fr.toNat)
  | .accel => (r.acceleration.toNat, 0)
  | .batt => (r.battery.int.toNat, r.battery.fr.toNat)
  | .cput => (r.cpuTemperature.int.toNat, r.cpuTemperature.fr.toNat)
  | .swh => (r.significantWaveHeight.toNat, 0)
  | .awh => (r.averageWaveHeight.toNat, 0)
  | .aper => (r.averagePeriod.toNat, 0)

/-- The architectural value of a field: an exact number (R13, 44_decode.md R94). -/
def Record.value (r : Record) (l : Lane) : ℚ := ((r.ports l).1 : ℚ) + ((r.ports l).2 : ℚ) / (laneDivisor l : ℚ)

/-- The largest `int` and the largest `fr` a field's ports can show (the "port ranges" of R13). -/
def portRange : Lane → Nat × Nat
  | .info => (255, 0)
  | .temp => (257, 99)
  | .hum => (257, 99)
  | .airp => (6553, 9)
  | .accel => (255, 0)
  | .batt => (655, 99)
  | .cput => (257, 99)
  | .swh => (65535, 0)
  | .awh => (65535, 0)
  | .aper => (65535, 0)

/-- Every field of the record lies in the range of R13. -/
abbrev Record.inRange (r : Record) : Prop :=
  ∀ l ∈ [Lane.info, .temp, .hum, .airp, .accel, .batt, .cput, .swh, .awh, .aper],
    (r.ports l).1 ≤ (portRange l).1 ∧ (r.ports l).2 ≤ (portRange l).2

end Sys2Proof.Machine
end

