-- ==== Sys2Proof/Machine/Ops.lean ====
section
/-! DEFINITION. The named operations: the frame as an address space and `MemRead`, the writes of the ten result fields,
delivery through the pipeline, taking MalformedFrame, reset. -/

namespace Sys2Proof.Machine

/-! ### The frame address space (20_memory.md) -/

/-- A memory: cells `(offset, byte)`. The one address space is the frame of the current transaction (R30), read-only
(R37); an unlisted offset does not exist (DEDUCED, log entry 12). -/
abbrev Memory := List Host.Cell

/-- The canonical form: offsets strictly rising. An unlisted offset reads as nothing, so no cell can repeat it. -/
def Memory.wf : Memory → Bool
  | [] => true
  | [_] => true
  | c :: d :: m => decide (c.1 < d.1) && Memory.wf (d :: m)

/-- The frame of an operand: offsets `0` to `len - 1` exist and no others (R30, R42), and of these only 0 to 17 reach
the block (R40). -/
def frameMemory (op : Operand) : Memory :=
  (List.range (min op.len frameBytes)).map fun k => (k, busByte op.bus k)

/-- `MemRead(a, 1)`, a byte; nothing where the offset does not exist (R41, R42). -/
def Memory.read1 : Memory → Nat → Option Byte
  | [], _ => none
  | c :: m, a => if c.1 = a then some c.2 else Memory.read1 m a

/-- `MemRead(a, 2) = frame[a] + 256*frame[a+1]`, the low byte at the lower offset (R32, R41). -/
def Memory.read2 (m : Memory) (a : Nat) : Option (BitVec 16) :=
  match m.read1 a, m.read1 (a + 1) with
  | some lo, some hi => some (compose16 lo hi)
  | _, _ => none

/-! ### Result fields: `out.<Field> <- v` (00_scope.md section 5) -/

def State.setInfo (s : State) (v : BitVec 8) : State :=
  { s with fields := { s.fields with info := some v } }
def State.setTemperature (s : State) (v : Scaled 9 7) : State :=
  { s with fields := { s.fields with temperature := some v } }
def State.setHumidity (s : State) (v : Scaled 9 7) : State :=
  { s with fields := { s.fields with humidity := some v } }
def State.setAirPressure (s : State) (v : Scaled 13 4) : State :=
  { s with fields := { s.fields with airPressure := some v } }
def State.setAcceleration (s : State) (v : BitVec 8) : State :=
  { s with fields := { s.fields with acceleration := some v } }
def State.setBattery (s : State) (v : Scaled 10 7) : State :=
  { s with fields := { s.fields with battery := some v } }
def State.setCpuTemperature (s : State) (v : Scaled 9 7) : State :=
  { s with fields := { s.fields with cpuTemperature := some v } }
def State.setSignificantWaveHeight (s : State) (v : BitVec 16) : State :=
  { s with fields := { s.fields with significantWaveHeight := some v } }
def State.setAverageWaveHeight (s : State) (v : BitVec 16) : State :=
  { s with fields := { s.fields with averageWaveHeight := some v } }
def State.setAveragePeriod (s : State) (v : BitVec 16) : State :=
  { s with fields := { s.fields with averagePeriod := some v } }

/-- The result fields given up: they live for one transaction only (10_state.md R11). -/
def State.clearFields (s : State) : State := { s with fields := Fields.empty }

/-- The record, once all ten fields are written; nothing before (44_decode.md R92). -/
def Fields.complete : Fields → Option Record
  | ⟨some a, some b, some c, some d, some e, some f, some g, some h, some i, some j⟩ =>
    some ⟨a, b, c, d, e, f, g, h, i, j⟩
  | _ => none

/-! ### Delivery (70_reset_and_hazards.md R126) -/

/-- One clock cycle of the pipeline: `x` (an outcome, or nothing) goes in, and what went in LATENCY cycles before comes
out on the output ports; with LATENCY = 0 that is `x` itself (log entry 11). -/
def State.advance (s : State) (x : Option TxOutcome) : State :=
  match s.inflight with
  | [] => { s with out := x }
  | y :: q => { s with out := y, inflight := q ++ [x] }

/-- The transaction ends with outcome `o`: no result field is kept and the outcome is delivered (R91, R126). -/
def State.deliver (s : State) (o : TxOutcome) : State := s.clearFields.advance (some o)

/-- `deliver ok(out)` (44_decode.md R90): the record if all ten fields are written, else a fault. -/
def State.deliverRecord (s : State) : Host.Outcome State Fault Refusal :=
  match s.fields.complete with
  | some r => .next (s.deliver (.ok r))
  | none => .fault .fieldUnwritten

/-- `raise MalformedFrame` (60_exceptions.md R100, R106): the block's one exception. Nothing is saved, no mode, mask or
address changes, no field is written; the error goes to the caller as the outcome of the transaction. There is no return
from it: the block is ready for the next transaction at once (R107). -/
def State.takeMalformedFrame (s : State) : State := s.deliver (.error .malformedFrame)

/-- A cycle with `rst` asserted: `out_valid = 0`, and the transactions in flight, with one presented in this cycle, are
dropped (10_state.md R22, 92_eei_decisions.md D9; log entry 10). -/
def State.resetCycle (s : State) : State :=
  { s with fields := Fields.empty, inflight := List.replicate s.params.latency none, out := none }

/-! ### Sampling the input ports (20_memory.md R38) -/

/-- The input ports in the coming cycle; past the end of what the host presents, an idle cycle. -/
def State.currentPorts (s : State) : InPorts := s.inputs.headD InPorts.idle

/-- The cycle is used up: its operand is sampled once and not again (R38). -/
def State.consumePorts (s : State) : State := { s with inputs := s.inputs.tail }

/-- The operand on the ports. -/
def InPorts.operand (i : InPorts) : Operand := { len := i.inLen, bus := i.inFrame }

/-- `rst` is asserted in an implementation that has it. -/
def resetAsserted (p : Params) (i : InPorts) : Bool := p.hasRst && i.rst

/-- Input ports that present an operand. -/
def presentOperand (op : Operand) : InPorts := { rst := false, inValid := true, inLen := op.len, inFrame := op.bus }

/-- The coming cycle made to present `op`; later cycles stay. -/
def State.placeOperand (s : State) (op : Operand) : State := { s with inputs := presentOperand op :: s.inputs.tail }

end Sys2Proof.Machine
end

