-- ==== Sys2Proof/Machine/Fix100.lean ====
section
/-! DEFINITION. The FIX100 lanes, TEMP, HUM and CPUT (41_fix100.md). -/

namespace Sys2Proof.Machine

/-- TEMP (R75): `out.Temperature <- w + f/100`. -/
def execTemp (w f : Byte) (s : State) : Host.Outcome State Fault Refusal := .next (s.setTemperature (fix100 w f))

/-- HUM (R76): `out.Humidity <- w + f/100`. -/
def execHum (w f : Byte) (s : State) : Host.Outcome State Fault Refusal := .next (s.setHumidity (fix100 w f))

/-- CPUT (R77): `out.CPU_temperature <- w + f/100`. -/
def execCput (w f : Byte) (s : State) : Host.Outcome State Fault Refusal := .next (s.setCpuTemperature (fix100 w f))

end Sys2Proof.Machine
end

