-- ==== Sys2Proof/Machine/Le16.lean ====
section
/-! DEFINITION. The LE16 lanes, SWH, AWH and APER (43_le16_raw.md). No divisor is applied (30_encoding.md R56). -/

namespace Sys2Proof.Machine

/-- SWH (R85): `out.Significant_wave_height <- lo + 256*hi`. -/
def execSwh (lo hi : Byte) (s : State) : Host.Outcome State Fault Refusal :=
  .next (s.setSignificantWaveHeight (compose16 lo hi))

/-- AWH (R86): `out.Average_wave_height <- lo + 256*hi`. -/
def execAwh (lo hi : Byte) (s : State) : Host.Outcome State Fault Refusal :=
  .next (s.setAverageWaveHeight (compose16 lo hi))

/-- APER (R87): `out.Average_period <- lo + 256*hi`. -/
def execAper (lo hi : Byte) (s : State) : Host.Outcome State Fault Refusal :=
  .next (s.setAveragePeriod (compose16 lo hi))

end Sys2Proof.Machine
end

