-- ==== Sys2Proof/Machine/Le16s.lean ====
section
/-! DEFINITION. The LE16S lanes, AIRP and BATT (42_le16_scaled.md). -/

namespace Sys2Proof.Machine

/-- AIRP (R80): `out.AirPressure <- (lo + 256*hi) / 10`. -/
def execAirp (lo hi : Byte) (s : State) : Host.Outcome State Fault Refusal :=
  .next (s.setAirPressure (scale airpDivisor 13 4 (compose16 lo hi)))

/-- BATT (R81): `out.Battery <- (lo + 256*hi) / 100`. -/
def execBatt (lo hi : Byte) (s : State) : Host.Outcome State Fault Refusal :=
  .next (s.setBattery (scale battDivisor 10 7 (compose16 lo hi)))

end Sys2Proof.Machine
end

