-- ==== Sys2Proof/Machine/Raw8.lean ====
section
/-! DEFINITION. The RAW8 lanes, INFO and ACCEL (40_raw8.md). -/

namespace Sys2Proof.Machine

/-- INFO (R70): `out.Info <- zext_8(v)`. -/
def execInfo (v : Byte) (s : State) : Host.Outcome State Fault Refusal := .next (s.setInfo (raw8 v))

/-- ACCEL (R71): `out.Acceleration <- zext_8(v)`. -/
def execAccel (v : Byte) (s : State) : Host.Outcome State Fault Refusal := .next (s.setAcceleration (raw8 v))

end Sys2Proof.Machine
end

