-- ==== Sys2Proof/Machine/Transaction.lean ====
section
/-! DEFINITION. DECODE, the block's one transaction (44_decode.md R90). -/

namespace Sys2Proof.Machine

/-- A lane of one operand byte, read at offset `a`. -/
def withByte (m : Memory) (a : Nat) (k : Byte → Host.Outcome State Fault Refusal) :
    Host.Outcome State Fault Refusal :=
  match m.read1 a with
  | some v => k v
  | none => .fault .offsetAbsent

/-- A lane of two operand bytes, read at offsets `a` and `a + 1` in that order. -/
def withBytes (m : Memory) (a : Nat) (k : Byte → Byte → Host.Outcome State Fault Refusal) :
    Host.Outcome State Fault Refusal :=
  withByte m a fun x => withByte m (a + 1) fun y => k x y

/-- One lane of a transaction: its bytes read from the frame at its fixed offsets (44_decode.md R96), and its rule. -/
def runLane (m : Memory) (s : State) : Lane → Host.Outcome State Fault Refusal
  | .info => withByte m 0 fun v => execInfo v s
  | .temp => withBytes m 1 fun w f => execTemp w f s
  | .hum => withBytes m 3 fun w f => execHum w f s
  | .airp => withBytes m 5 fun lo hi => execAirp lo hi s
  | .accel => withByte m 7 fun v => execAccel v s
  | .batt => withBytes m 8 fun lo hi => execBatt lo hi s
  | .cput => withBytes m 10 fun w f => execCput w f s
  | .swh => withBytes m 12 fun lo hi => execSwh lo hi s
  | .awh => withBytes m 14 fun lo hi => execAwh lo hi s
  | .aper => withBytes m 16 fun lo hi => execAper lo hi s

/-- Lanes run one after another on one frame. The hardware runs them at once; no order can be observed (10_state.md
R14, 92_eei_decisions.md D15; DEDUCED, log entry 13). -/
def runLanes (m : Memory) (s : State) : List Lane → Host.Outcome State Fault Refusal
  | [] => .next s
  | l :: ls =>
    match runLane m s l with
    | .next t => runLanes m t ls
    | .fault r => .fault r
    | .refused r => .refused r

/-- DECODE (R90): the length guard before anything else, then all ten lanes, then the delivery of the record. -/
def execDecode (len : Nat) (frame : Bus) (s : State) : Host.Outcome State Fault Refusal :=
  if lengthGuard len then .next s.takeMalformedFrame
  else
    match runLanes (frameMemory { len := len, bus := frame }) s.clearFields Lane.all with
    | .next t => t.deliverRecord
    | .fault r => .fault r
    | .refused r => .refused r

end Sys2Proof.Machine
end

