-- ==== Sys2Proof/Machine/Dispatch.lean ====
section
/-! DEFINITION. The meaning of every instruction: one direct call for each. -/

namespace Sys2Proof.Machine

def exec (i : Instr) (s : State) : Host.Outcome State Fault Refusal :=
  match i with
  | .info v => Sys2Proof.Machine.execInfo v s
  | .temp w f => Sys2Proof.Machine.execTemp w f s
  | .hum w f => Sys2Proof.Machine.execHum w f s
  | .airp lo hi => Sys2Proof.Machine.execAirp lo hi s
  | .accel v => Sys2Proof.Machine.execAccel v s
  | .batt lo hi => Sys2Proof.Machine.execBatt lo hi s
  | .cput w f => Sys2Proof.Machine.execCput w f s
  | .swh lo hi => Sys2Proof.Machine.execSwh lo hi s
  | .awh lo hi => Sys2Proof.Machine.execAwh lo hi s
  | .aper lo hi => Sys2Proof.Machine.execAper lo hi s
  | .decode len frame => Sys2Proof.Machine.execDecode len frame s

end Sys2Proof.Machine
end

