-- ==== Sys2Proof/Machine/Cycle.lean ====
section
/-! DEFINITION. One clock cycle at the block's boundary (10_state.md R19, 70_reset_and_hazards.md R125, R126). A
transaction is one atomic step (00_scope.md R6); a step is one cycle, in which at most one transaction is presented
(DEDUCED, log entry 1). -/

namespace Sys2Proof.Machine

/-- One cycle with the given input ports. `rst` comes first: a transaction presented during reset delivers no outcome
(R22). With `in_valid = 0` there is no transaction and every other `in_*` port is ignored (R19, D17). Otherwise the
operand on the ports is decoded and run, in any cycle: there is no back-pressure (R125). -/
def runCycle (i : InPorts) (s : State) : Host.Outcome State Fault Refusal :=
  if resetAsserted s.params i then .next s.resetCycle
  else if i.inValid then
    match decodeFrame s.params i.operand with
    | .ok instr => exec instr s
    | .error e => .refused (.undecodable e)
  else .next (s.advance none)

end Sys2Proof.Machine
end

