-- ==== Sys2Proof/Machine/Step.lean ====
section
/-! DEFINITION. The step of the machine, and the placing of a word where the next step takes it. -/

namespace Sys2Proof.Machine

/-- One step: the coming cycle's input ports are sampled once and the cycle is run (20_memory.md R38). -/
def step (s : State) : Host.Outcome State Fault Refusal := runCycle s.currentPorts s.consumePorts

/-- `s` with the frame of an opcode-table word presented in the coming cycle: `in_valid = 1`, no `rst`. This stands for
what the host does; the block loads nothing itself (70_reset_and_hazards.md R122; log entry 4). -/
def State.withFetchWord (s : State) (nbits w : Nat) : State := s.placeOperand (tableOperand s.params nbits w)

end Sys2Proof.Machine
end

