-- ==== Sys2Proof/Machine/Caller.lean ====
section
/-! DEFINITION. What the host does at the ports when it keeps its duties (70_reset_and_hazards.md R122): it presents a
frame of its own with the frame's true length, saturated to the port. A host that states another length is not shut
out: such ports are among the values of `InPorts`, and the block decodes what is on them (92_eei_decisions.md D18). -/

namespace Sys2Proof.Machine

/-- The 18 byte positions for a frame: its own first bytes, and where it is short whatever `pad` has there, which may be
anything (10_state.md R19, 93_implementation_defined.md U11). -/
def frameOnBus (pad : Bus) (frame : List Byte) : Bus :=
  packBus ((List.range frameBytes).map fun k => frame.getD k (busByte pad k))

/-- A truthful presentation of a frame of any length (R122, 20_memory.md R31, R40). -/
def presentFrame (p : Params) (pad : Bus) (frame : List Byte) : InPorts :=
  presentOperand { len := saturateLen p frame.length, bus := frameOnBus pad frame }

end Sys2Proof.Machine
end

