-- ==== Sys2Proof/Machine/Ports.lean ====
section
/-! DEFINITION. The output ports of 10_state.md R19 as the user of the block may read them (70_reset_and_hazards.md
R124). A port that carries no architectural value is ABSENT here, never zero and never an earlier value (10_state.md
R20, 92_eei_decisions.md D8; log entry 14). -/

namespace Sys2Proof.Machine

/-- `out_valid`. -/
def State.outValid (s : State) : Bool := s.out.isSome

/-- `out_malformed`: has a value only with `out_valid = 1`. -/
def State.outMalformed (s : State) : Option Bool := s.out.map TxOutcome.malformed

/-- The record of a successful outcome. -/
def TxOutcome.record : TxOutcome → Option Record
  | .ok r => some r
  | .error .malformedFrame => none

/-- The record on the field ports: has a value only with `out_valid = 1` and `out_malformed = 0`. -/
def State.outRecord (s : State) : Option Record := s.out.bind TxOutcome.record

def State.outInfo (s : State) : Option (BitVec 8) := s.outRecord.map Record.info
def State.outTempInt (s : State) : Option (BitVec 9) := s.outRecord.map fun r => r.temperature.int
def State.outTempFr (s : State) : Option (BitVec 7) := s.outRecord.map fun r => r.temperature.fr
def State.outHumInt (s : State) : Option (BitVec 9) := s.outRecord.map fun r => r.humidity.int
def State.outHumFr (s : State) : Option (BitVec 7) := s.outRecord.map fun r => r.humidity.fr
def State.outAirpInt (s : State) : Option (BitVec 13) := s.outRecord.map fun r => r.airPressure.int
def State.outAirpFr (s : State) : Option (BitVec 4) := s.outRecord.map fun r => r.airPressure.fr
def State.outAccel (s : State) : Option (BitVec 8) := s.outRecord.map Record.acceleration
def State.outBattInt (s : State) : Option (BitVec 10) := s.outRecord.map fun r => r.battery.int
def State.outBattFr (s : State) : Option (BitVec 7) := s.outRecord.map fun r => r.battery.fr
def State.outCputInt (s : State) : Option (BitVec 9) := s.outRecord.map fun r => r.cpuTemperature.int
def State.outCputFr (s : State) : Option (BitVec 7) := s.outRecord.map fun r => r.cpuTemperature.fr
def State.outSwh (s : State) : Option (BitVec 16) := s.outRecord.map Record.significantWaveHeight
def State.outAwh (s : State) : Option (BitVec 16) := s.outRecord.map Record.averageWaveHeight
def State.outAper (s : State) : Option (BitVec 16) := s.outRecord.map Record.averagePeriod

/-- Which of the fifteen field ports carry a value, in the order of R19. -/
def State.fieldPortsPresent (s : State) : List Bool :=
  [s.outInfo.isSome, s.outTempInt.isSome, s.outTempFr.isSome, s.outHumInt.isSome, s.outHumFr.isSome,
    s.outAirpInt.isSome, s.outAirpFr.isSome, s.outAccel.isSome, s.outBattInt.isSome, s.outBattFr.isSome,
    s.outCputInt.isSome, s.outCputFr.isSome, s.outSwh.isSome, s.outAwh.isSome, s.outAper.isSome]

end Sys2Proof.Machine
end

