-- ==== Sys2Proof/Machine/Text.lean ====
section
/-! DEFINITION. The spec's textual notation for transactions and lanes (30_encoding.md R60) and for results (R61). It
writes numbers out; it changes none. -/

namespace Sys2Proof.Machine

/-- A scaled field with D = 10: one fraction digit (R61). -/
def textTenths {a b : Nat} (x : Scaled a b) : String := Nat.repr x.int.toNat ++ "." ++ Nat.repr x.fr.toNat

/-- A scaled field with D = 100: the fraction padded with a leading zero to two digits (R61). -/
def textHundredths {a b : Nat} (x : Scaled a b) : String :=
  Nat.repr x.int.toNat ++ "." ++ (if x.fr.toNat < 10 then "0" else "") ++ Nat.repr x.fr.toNat

/-- A field's value as text (R61). -/
def Record.text (r : Record) : Lane → String
  | .info => Nat.repr r.info.toNat
  | .temp => textHundredths r.temperature
  | .hum => textHundredths r.humidity
  | .airp => textTenths r.airPressure
  | .accel => Nat.repr r.acceleration.toNat
  | .batt => textHundredths r.battery
  | .cput => textHundredths r.cpuTemperature
  | .swh => Nat.repr r.significantWaveHeight.toNat
  | .awh => Nat.repr r.averageWaveHeight.toNat
  | .aper => Nat.repr r.averagePeriod.toNat

/-- The source's name of a lane's result field (10_state.md R13). -/
def fieldName : Lane → String
  | .info => "Info"
  | .temp => "Temperature"
  | .hum => "Humidity"
  | .airp => "AirPressure"
  | .accel => "Acceleration"
  | .batt => "Battery"
  | .cput => "CPU_temperature"
  | .swh => "Significant_wave_height"
  | .awh => "Average_wave_height"
  | .aper => "Average_period"

/-- An outcome as text: `ok` and the ten named fields in offset order, or the error (R60). -/
def TxOutcome.text : TxOutcome → String
  | .ok r =>
    "ok" ++ String.singleton (Char.ofNat 0x7B)
      ++ ", ".intercalate (Lane.all.map fun l => fieldName l ++ "=" ++ r.text l)
      ++ String.singleton (Char.ofNat 0x7D)
  | .error .malformedFrame => "MalformedFrame"

/-- Byte operands as text: decimal, in ascending offset order, with commas (R60). -/
def bytesText (bs : List Byte) : String := ", ".intercalate (bs.map fun b => Nat.repr b.toNat)

/-- A transaction as text: `DECODE [b0, b1, ...]` (R60). -/
def decodeText (frame : List Byte) : String := "DECODE [" ++ bytesText frame ++ "]"

/-- A lane applied to its bytes as text (R60); DECODE with those of its bytes that are on the bus (DESIGN CHOICE, log
entry 16). -/
def instrText : Instr → String
  | .info v => "INFO " ++ bytesText [v]
  | .temp w f => "TEMP " ++ bytesText [w, f]
  | .hum w f => "HUM " ++ bytesText [w, f]
  | .airp lo hi => "AIRP " ++ bytesText [lo, hi]
  | .accel v => "ACCEL " ++ bytesText [v]
  | .batt lo hi => "BATT " ++ bytesText [lo, hi]
  | .cput w f => "CPUT " ++ bytesText [w, f]
  | .swh lo hi => "SWH " ++ bytesText [lo, hi]
  | .awh lo hi => "AWH " ++ bytesText [lo, hi]
  | .aper lo hi => "APER " ++ bytesText [lo, hi]
  | .decode len frame => decodeText ((List.range (min len frameBytes)).map (busByte frame))

/-- A transaction and its outcome: `DECODE [...] => outcome` (R60). -/
def transactionText (frame : List Byte) (o : TxOutcome) : String := decodeText frame ++ " => " ++ o.text

/-- A hexadecimal digit. -/
def hexDigit (n : Nat) : Char := "0123456789ABCDEF".toList.getD n '0'

/-- The 144-bit literal of a frame: `0x` and 36 digits, most significant first, byte 17 first and byte 0 last (R60). -/
def busText (bus : Bus) : String :=
  "0x" ++ String.ofList ((List.range 36).reverse.map fun k => hexDigit (bus.toNat >>> (4 * k) % 16))

/-- The pattern letter of the byte at an offset: `a` for offset 0 to `r` for offset 17 (R50). -/
def patternLetter (k : Nat) : Char := Char.ofNat (97 + k)

/-- The `encoding` string of a row: 144 characters, bit 143 first, the row's own bytes as their letters and every other
bit `x` (R50, R51). It holds no fixed `0` or `1`: every word matches every row. -/
def rowPattern (r : Row) : String :=
  String.ofList ((List.range 144).reverse.map fun b => if b / 8 ∈ r.offsets then patternLetter (b / 8) else 'x')

end Sys2Proof.Machine
end

