-- ==== Sys2Proof/Safety.lean ====
section
/-! DEFINITION. The terms claims use: the invariant of a safe run, the result the spec gives for an operand, and the
outcomes a run delivers. -/

namespace Sys2Proof.Machine

/-! ### The invariant -/

/-- An outcome the block may deliver: a record within the ranges of 10_state.md R13, or the error. -/
def TxOutcome.inRange : TxOutcome → Prop
  | .ok r => r.inRange
  | .error .malformedFrame => True

/-- Every coming cycle has a number on `in_len` that its LEN_W wires can carry (R19). -/
def State.inputsOnPorts (s : State) : Prop := ∀ i ∈ s.inputs, s.params.onLenPort i.inLen = true

/-- What holds of the block at the boundary of every cycle: LEN_W at least 5 (R5); LATENCY places in flight (R126); no
result field kept between transactions (R10, R11); every `in_len` a number of its port (R19); every outcome in flight or
delivered within the ranges of R13. -/
structure Inv (s : State) : Prop where
  params : s.params.wf
  inflight : s.inflight.length = s.params.latency
  fields : s.fields = Fields.empty
  inputs : s.inputsOnPorts
  flying : ∀ o, some o ∈ s.inflight → o.inRange
  delivered : ∀ o, s.out = some o → o.inRange

/-! ### What the spec gives for an operand -/

/-- The exact values of 44_decode.md R90 for a frame whose byte at offset `k` is the number `b k`. -/
structure DecodesTo (b : Nat → Nat) (r : Record) : Prop where
  info : r.value .info = b 0
  temperature : r.value .temp = b 1 + b 2 / 100
  humidity : r.value .hum = b 3 + b 4 / 100
  airPressure : r.value .airp = (b 5 + 256 * b 6) / 10
  acceleration : r.value .accel = b 7
  battery : r.value .batt = (b 8 + 256 * b 9) / 100
  cpuTemperature : r.value .cput = b 10 + b 11 / 100
  significantWaveHeight : r.value .swh = b 12 + 256 * b 13
  averageWaveHeight : r.value .awh = b 14 + 256 * b 15
  averagePeriod : r.value .aper = b 16 + 256 * b 17

/-- The outcome R90 gives: MalformedFrame for `len < 18`, else a record with the exact values in the port ranges. -/
def OutcomeFor (len : Nat) (b : Nat → Nat) (o : TxOutcome) : Prop :=
  if len < 18 then o = .error .malformedFrame else ∃ r, o = .ok r ∧ DecodesTo b r ∧ r.inRange

/-- The byte of a frame at an offset, as a number; used only below the frame's length. -/
def byteOf (frame : List Byte) (k : Nat) : Nat := (frame.getD k 0).toNat

/-! ### Delivery -/

/-- `t` is `s` after a cycle that put `x` into the pipeline: the output ports carry what went in LATENCY cycles before
(`x` itself where nothing is in flight), the rest stays in flight, and nothing else but the result fields may differ
(70_reset_and_hazards.md R126). -/
structure Delivers (s : State) (x : Option TxOutcome) (t : State) : Prop where
  out : t.out = (s.inflight ++ [x]).headD none
  inflight : t.inflight = (s.inflight ++ [x]).tail
  inputs : t.inputs = s.inputs
  params : t.params = s.params

/-! ### Runs -/

/-- The output ports in each of the next `n` cycles; a list shorter than `n` would mean that the machine stopped. -/
def deliveries : Nat → State → List (Option TxOutcome)
  | 0, _ => []
  | n + 1, s =>
    match step s with
    | .next t => t.out :: deliveries n t
    | .fault _ => []
    | .refused _ => []

/-- No cycle of the input asserts a `rst` the implementation has. -/
def State.noReset (s : State) : Prop := ∀ i ∈ s.inputs, resetAsserted s.params i = false

end Sys2Proof.Machine
end

