-- ==== Sys2Proof/Certificates/Slice0/Obligations.lean ====
section
/-! DEFINITION. The statements for the provers. Each docstring names the rule of spec/ it rests on. `(busByte bus k)` is
the byte at offset `k` of the frame on the bus; a statement about `exec (.decode len bus)` is about every operand the
ports can carry, a truthful `len` or not. -/

open Sys2Proof Sys2Proof.Machine

/-! ### Encoding -/

/-- Decode and encode agree for every instruction, with every operand: the row of the instruction reads it back from its
own word (30_encoding.md R50, R51). -/
def Obligations.RowDecodesItsEncoding : Prop :=
  ∀ i : Instr, decodeRow i.row (encode i) = .ok i

/-- What the block takes from its ports is the transaction DECODE whatever the bytes are, and encoding it gives the
operand back; the one operand rejected is a length its port cannot carry (R51, R58, R59, R19). That the decoder always
answers DECODE is the model's reading of R51 (DEDUCED, log entry 3), and that such a length is rejected by name is its
reading of R31 and U7 (DEDUCED, log entry 8). -/
def Obligations.PortsDecodeToTheTransaction : Prop :=
  ∀ (p : Params) (op : Operand),
    (p.onLenPort op.len = true →
      ∃ i, decodeFrame p op = .ok i ∧ i = .decode op.len op.bus ∧ i.wellFormed p = true ∧ encode i = op) ∧
    (p.onLenPort op.len = false → decodeFrame p op = .error .lenNotOnPort)

/-- A lane's row, on a frame of at least 18 bytes, reads the lane's own bytes and nothing else, and re-encoding puts
them back; on a shorter frame it reads nothing (10_state.md R12, 20_memory.md R39, R42). -/
def Obligations.LaneRowReadsExactlyItsOwnBytes : Prop :=
  ∀ (l : Lane) (op : Operand),
    (op.len < 18 → decodeRow (.lane l) op = .error .shortFrame) ∧
    (18 ≤ op.len → ∃ i, decodeRow (.lane l) op = .ok i ∧ i.row = .lane l ∧
      (∀ k ∈ l.offsets, busByte (encode i).bus k = busByte op.bus k) ∧
      ∀ op' : Operand, 18 ≤ op'.len → (∀ k ∈ l.offsets, busByte op'.bus k = busByte op.bus k) →
        decodeRow (.lane l) op' = .ok i)

/-- The map is dense: each of the offsets 0 to 17 belongs to exactly one lane, and a lane has as many as its format
takes (R12, R39, 30_encoding.md R52). -/
def Obligations.EachByteBelongsToOneLane : Prop :=
  (Lane.all.flatMap Lane.offsets = List.range 18) ∧
  (∀ l ∈ Lane.all, l.offsets.length = l.format.size) ∧
  ∀ k < 18, ∃ l ∈ Lane.all, k ∈ l.offsets ∧ ∀ l' ∈ Lane.all, k ∈ l'.offsets → l' = l

/-- The words of 95_test_vectors.md P1 and P3, byte lists against `in_frame` values, and what the rows read from P1. P3
writes `in_frame[135:0]` of its 17-byte frame and leaves `in_frame[143:136]` any value: that those bits are 0 here is the
model's choice (DESIGN CHOICE, log entry 5). That bytes decode to DECODE is its reading of R51 (DEDUCED, log entry 3). -/
def Obligations.SpecWordsDecode : Prop :=
  decodeBytes Params.reference [1, 22, 50, 60, 25, 10, 0, 3, 2, 4, 30, 10, 100, 0, 50, 0, 10, 0]
      = .ok (.decode 18 0x000A003200640A1E040203000A193C321601#144) ∧
  decodeBytes Params.reference [1, 22, 50, 60, 25, 10, 0, 3, 2, 4, 30, 10, 100, 0, 50, 0, 10]
      = .ok (.decode 17 0x0A003200640A1E040203000A193C321601#144) ∧
  decodeEveryRow ⟨18, 0x000A003200640A1E040203000A193C321601#144⟩
      = [.ok (.info 1), .ok (.temp 22 50), .ok (.hum 60 25), .ok (.airp 10 0), .ok (.accel 3), .ok (.batt 2 4),
         .ok (.cput 30 10), .ok (.swh 100 0), .ok (.awh 50 0), .ok (.aper 10 0),
         .ok (.decode 18 0x000A003200640A1E040203000A193C321601#144)]

/-- With the packing of R50 a little-endian two-byte field is one contiguous 16-bit slice of the bus, at any offset,
odd or even (R50, R35). -/
def Obligations.TwoByteFieldIsABusSlice : Prop :=
  ∀ (bus : Bus) (a : Nat), a + 1 < 18 →
    compose16 (busByte bus a) (busByte bus (a + 1)) = bus.extractLsb' (8 * a) 16

/-! ### Operand assembly -/

/-- R53, whole: the three forms, the bijection, the corner values and the source's example. -/
def Obligations.ComposeIsLittleEndianAndBijective : Prop :=
  (∀ lo hi : Byte,
    (compose16 lo hi).toNat = lo.toNat + 256 * hi.toNat ∧
    (compose16 lo hi).toNat = lo.toNat + (hi.toNat <<< 8) ∧
    compose16 lo hi = hi ++ lo ∧
    lo.toNat = (compose16 lo hi).toNat % 256 ∧ hi.toNat = (compose16 lo hi).toNat / 256) ∧
  (∀ n : BitVec 16, ∃ lo hi : Byte, compose16 lo hi = n ∧ ∀ lo' hi' : Byte, compose16 lo' hi' = n → lo' = lo ∧ hi' = hi) ∧
  compose16 0 0 = 0 ∧ compose16 255 0 = 255 ∧ compose16 0 1 = 256 ∧ compose16 255 255 = 65535 ∧ compose16 5 6 = 1541

/-- R54, whole: the exact value, the two ports and their ranges, the carry of the fractional byte, the example that the
function is not injective, and the corner values. -/
def Obligations.Fix100IsExact : Prop :=
  (∀ w f : Byte,
    (fix100 w f).value 100 = (w.toNat : ℚ) + (f.toNat : ℚ) / 100 ∧
    (fix100 w f).value 100 = ((100 * w.toNat + f.toNat : Nat) : ℚ) / 100 ∧
    100 * w.toNat + f.toNat ≤ 25755 ∧
    (fix100 w f).int.toNat = (100 * w.toNat + f.toNat) / 100 ∧
    (fix100 w f).int.toNat = w.toNat + f.toNat / 100 ∧ (fix100 w f).int.toNat ≤ 257 ∧
    (fix100 w f).fr.toNat = (100 * w.toNat + f.toNat) % 100 ∧
    (fix100 w f).fr.toNat = f.toNat % 100 ∧ (fix100 w f).fr.toNat ≤ 99 ∧
    (f.toNat ≤ 99 → f.toNat / 100 = 0) ∧ (100 ≤ f.toNat → f.toNat ≤ 199 → f.toNat / 100 = 1) ∧
    (200 ≤ f.toNat → f.toNat / 100 = 2)) ∧
  (fix100 1 150 = fix100 2 50 ∧ (fix100 1 150).value 100 = 5 / 2) ∧
  (∀ w : Byte, (fix100 w 150).int.toNat = w.toNat + 1 ∧ (fix100 w 150).fr = 50) ∧
  fix100 0 0 = ⟨0, 0⟩ ∧ fix100 23 45 = ⟨23, 45⟩ ∧ fix100 0 99 = ⟨0, 99⟩ ∧ fix100 0 100 = ⟨1, 0⟩ ∧
  fix100 255 255 = ⟨257, 55⟩

/-- R55, whole: for both divisors the exact quotient, the two ports and their ranges, that nothing is lost, the corner
values and the source's examples, and the scaler inside R54. -/
def Obligations.ScaleIsExact : Prop :=
  (∀ n : BitVec 16,
    (scale 10 13 4 n).value 10 = (n.toNat : ℚ) / 10 ∧
    (scale 10 13 4 n).int.toNat = n.toNat / 10 ∧ (scale 10 13 4 n).int.toNat ≤ 6553 ∧
    (scale 10 13 4 n).fr.toNat = n.toNat % 10 ∧ (scale 10 13 4 n).fr.toNat ≤ 9 ∧
    n.toNat = 10 * (scale 10 13 4 n).int.toNat + (scale 10 13 4 n).fr.toNat ∧
    (scale 100 10 7 n).value 100 = (n.toNat : ℚ) / 100 ∧
    (scale 100 10 7 n).int.toNat = n.toNat / 100 ∧ (scale 100 10 7 n).int.toNat ≤ 655 ∧
    (scale 100 10 7 n).fr.toNat = n.toNat % 100 ∧ (scale 100 10 7 n).fr.toNat ≤ 99 ∧
    n.toNat = 100 * (scale 100 10 7 n).int.toNat + (scale 100 10 7 n).fr.toNat) ∧
  (scale 10 13 4 0 = ⟨0, 0⟩ ∧ scale 10 13 4 9 = ⟨0, 9⟩ ∧ scale 10 13 4 10 = ⟨1, 0⟩ ∧ scale 10 13 4 65535 = ⟨6553, 5⟩ ∧
    scale 10 13 4 10130 = ⟨1013, 0⟩) ∧
  (scale 100 10 7 99 = ⟨0, 99⟩ ∧ scale 100 10 7 100 = ⟨1, 0⟩ ∧ scale 100 10 7 65535 = ⟨655, 35⟩ ∧
    scale 100 10 7 415 = ⟨4, 15⟩) ∧
  ∀ w f : Byte, (fix100 w f).int.toNat = w.toNat + (scale 100 10 7 (f.setWidth 16)).int.toNat ∧
    (fix100 w f).fr = (scale 100 10 7 (f.setWidth 16)).fr

/-- The ranges of R13 are reached whole: every multiple of 0.01 up to 257.55 by a FIX100 lane, of 0.1 up to 6553.5 by
AIRP, of 0.01 up to 655.35 by BATT. -/
def Obligations.EveryValueInRangeIsReached : Prop :=
  (∀ c : Nat, c ≤ 25755 → ∃ w f : Byte, (fix100 w f).value 100 = (c : ℚ) / 100) ∧
  (∀ n : Nat, n ≤ 65535 → ∃ lo hi : Byte, (scale airpDivisor 13 4 (compose16 lo hi)).value 10 = (n : ℚ) / 10) ∧
  (∀ n : Nat, n ≤ 65535 → ∃ lo hi : Byte, (scale battDivisor 10 7 (compose16 lo hi)).value 100 = (n : ℚ) / 100)

/-! ### The lanes -/

/-- R70 and R71, whole: where INFO and ACCEL find their byte, and that they pass it on unchanged and do nothing else. -/
def Obligations.Raw8LanesPassTheByte : Prop :=
  (∀ op : Operand, 18 ≤ op.len →
    decodeRow (.lane .info) op = .ok (.info (op.bus.extractLsb' 0 8)) ∧
    decodeRow (.lane .accel) op = .ok (.accel (op.bus.extractLsb' 56 8))) ∧
  ∀ (v : Byte) (s : State),
    exec (.info v) s = .next { s with fields := { s.fields with info := some v } } ∧
    exec (.accel v) s = .next { s with fields := { s.fields with acceleration := some v } }

/-- R75, R76 and R77, whole: where TEMP, HUM and CPUT find their bytes, the exact value, the two ports, and that they do
nothing else. -/
def Obligations.Fix100LanesAddHundredths : Prop :=
  (∀ op : Operand, 18 ≤ op.len →
    decodeRow (.lane .temp) op = .ok (.temp (op.bus.extractLsb' 8 8) (op.bus.extractLsb' 16 8)) ∧
    decodeRow (.lane .hum) op = .ok (.hum (op.bus.extractLsb' 24 8) (op.bus.extractLsb' 32 8)) ∧
    decodeRow (.lane .cput) op = .ok (.cput (op.bus.extractLsb' 80 8) (op.bus.extractLsb' 88 8))) ∧
  ∀ w f : Byte, ∃ x : Scaled 9 7,
    x.value 100 = (w.toNat : ℚ) + (f.toNat : ℚ) / 100 ∧
    x.int.toNat = w.toNat + f.toNat / 100 ∧ x.fr.toNat = f.toNat % 100 ∧
    ∀ s : State,
      exec (.temp w f) s = .next { s with fields := { s.fields with temperature := some x } } ∧
      exec (.hum w f) s = .next { s with fields := { s.fields with humidity := some x } } ∧
      exec (.cput w f) s = .next { s with fields := { s.fields with cpuTemperature := some x } }

/-- R80 and R81, whole: where AIRP and BATT find their bytes, the exact value over 10 and over 100, the ports, and that
they do nothing else. -/
def Obligations.Le16sLanesDivideByTheirConstant : Prop :=
  (∀ op : Operand, 18 ≤ op.len →
    decodeRow (.lane .airp) op = .ok (.airp (op.bus.extractLsb' 40 8) (op.bus.extractLsb' 48 8)) ∧
    decodeRow (.lane .batt) op = .ok (.batt (op.bus.extractLsb' 64 8) (op.bus.extractLsb' 72 8)) ∧
    compose16 (op.bus.extractLsb' 40 8) (op.bus.extractLsb' 48 8) = op.bus.extractLsb' 40 16 ∧
    compose16 (op.bus.extractLsb' 64 8) (op.bus.extractLsb' 72 8) = op.bus.extractLsb' 64 16) ∧
  ∀ lo hi : Byte, ∃ (x : Scaled 13 4) (y : Scaled 10 7),
    x.value 10 = ((lo.toNat : ℚ) + 256 * (hi.toNat : ℚ)) / 10 ∧
    x.int.toNat = (lo.toNat + 256 * hi.toNat) / 10 ∧ x.fr.toNat = (lo.toNat + 256 * hi.toNat) % 10 ∧
    y.value 100 = ((lo.toNat : ℚ) + 256 * (hi.toNat : ℚ)) / 100 ∧
    y.int.toNat = (lo.toNat + 256 * hi.toNat) / 100 ∧ y.fr.toNat = (lo.toNat + 256 * hi.toNat) % 100 ∧
    ∀ s : State,
      exec (.airp lo hi) s = .next { s with fields := { s.fields with airPressure := some x } } ∧
      exec (.batt lo hi) s = .next { s with fields := { s.fields with battery := some y } }

/-- R85, R86 and R87, whole: where SWH, AWH and APER find their bytes, that the composed value is passed on unscaled, and
that they do nothing else. -/
def Obligations.Le16LanesPassTheComposedValue : Prop :=
  (∀ op : Operand, 18 ≤ op.len →
    decodeRow (.lane .swh) op = .ok (.swh (op.bus.extractLsb' 96 8) (op.bus.extractLsb' 104 8)) ∧
    decodeRow (.lane .awh) op = .ok (.awh (op.bus.extractLsb' 112 8) (op.bus.extractLsb' 120 8)) ∧
    decodeRow (.lane .aper) op = .ok (.aper (op.bus.extractLsb' 128 8) (op.bus.extractLsb' 136 8)) ∧
    compose16 (op.bus.extractLsb' 96 8) (op.bus.extractLsb' 104 8) = op.bus.extractLsb' 96 16 ∧
    compose16 (op.bus.extractLsb' 112 8) (op.bus.extractLsb' 120 8) = op.bus.extractLsb' 112 16 ∧
    compose16 (op.bus.extractLsb' 128 8) (op.bus.extractLsb' 136 8) = op.bus.extractLsb' 128 16) ∧
  ∀ lo hi : Byte, ∃ n : BitVec 16, n.toNat = lo.toNat + 256 * hi.toNat ∧
    ∀ s : State,
      exec (.swh lo hi) s = .next { s with fields := { s.fields with significantWaveHeight := some n } } ∧
      exec (.awh lo hi) s = .next { s with fields := { s.fields with averageWaveHeight := some n } } ∧
      exec (.aper lo hi) s = .next { s with fields := { s.fields with averagePeriod := some n } }

/-- The frame of the ten lanes: a lane writes its own result field and nothing else, no flag, no port, no other lane's
field (10_state.md R11, R12, R17). -/
def Obligations.LaneWritesOnlyItsField : Prop :=
  ∀ (i : Instr) (s t : State), i.row ≠ .decode → exec i s = .next t →
    t.params = s.params ∧ t.inputs = s.inputs ∧ t.inflight = s.inflight ∧ t.out = s.out ∧
    (i.row ≠ .lane .info → t.fields.info = s.fields.info) ∧
    (i.row ≠ .lane .temp → t.fields.temperature = s.fields.temperature) ∧
    (i.row ≠ .lane .hum → t.fields.humidity = s.fields.humidity) ∧
    (i.row ≠ .lane .airp → t.fields.airPressure = s.fields.airPressure) ∧
    (i.row ≠ .lane .accel → t.fields.acceleration = s.fields.acceleration) ∧
    (i.row ≠ .lane .batt → t.fields.battery = s.fields.battery) ∧
    (i.row ≠ .lane .cput → t.fields.cpuTemperature = s.fields.cpuTemperature) ∧
    (i.row ≠ .lane .swh → t.fields.significantWaveHeight = s.fields.significantWaveHeight) ∧
    (i.row ≠ .lane .awh → t.fields.averageWaveHeight = s.fields.averageWaveHeight) ∧
    (i.row ≠ .lane .aper → t.fields.averagePeriod = s.fields.averagePeriod)

/-! ### The transaction -/

/-- R90, whole: DECODE completes from every state on every operand, with MalformedFrame for `len < 18` and else with the
ten exact values of the rule; it keeps no result field, and changes nothing but what it delivers. -/
def Obligations.DecodeDeliversTheRuleOfR90 : Prop :=
  ∀ (len : Nat) (bus : Bus) (s : State), ∃ (o : TxOutcome) (t : State),
    exec (.decode len bus) s = .next t ∧ Delivers s (some o) t ∧ t.fields = Fields.empty ∧
    OutcomeFor len (fun k => (busByte bus k).toNat) o

/-- The port encodings of the lane rules inside DECODE, from the bytes of the frame: the numbers of the delivered record
(10_state.md R13), and, with LATENCY = 0, the value of each of the fifteen field ports of R19 in the same cycle, by the
port's own name. For LATENCY > 0 `FieldPortsOnlyWithASuccess` says which field of the delivered record each port shows. -/
def Obligations.DecodeFieldPorts : Prop :=
  ∀ (len : Nat) (bus : Bus) (s : State), 18 ≤ len → ∃ (r : Record) (t : State),
    exec (.decode len bus) s = .next t ∧ Delivers s (some (.ok r)) t ∧
    let b : Nat → Nat := fun k => (busByte bus k).toNat
    r.ports .info = (b 0, 0) ∧
    r.ports .temp = (b 1 + b 2 / 100, b 2 % 100) ∧
    r.ports .hum = (b 3 + b 4 / 100, b 4 % 100) ∧
    r.ports .airp = ((b 5 + 256 * b 6) / 10, (b 5 + 256 * b 6) % 10) ∧
    r.ports .accel = (b 7, 0) ∧
    r.ports .batt = ((b 8 + 256 * b 9) / 100, (b 8 + 256 * b 9) % 100) ∧
    r.ports .cput = (b 10 + b 11 / 100, b 11 % 100) ∧
    r.ports .swh = (b 12 + 256 * b 13, 0) ∧
    r.ports .awh = (b 14 + 256 * b 15, 0) ∧
    r.ports .aper = (b 16 + 256 * b 17, 0) ∧
    (s.inflight = [] → t.outValid = true ∧ t.outMalformed = some false ∧
      t.outInfo.map BitVec.toNat = some (b 0) ∧
      t.outTempInt.map BitVec.toNat = some (b 1 + b 2 / 100) ∧ t.outTempFr.map BitVec.toNat = some (b 2 % 100) ∧
      t.outHumInt.map BitVec.toNat = some (b 3 + b 4 / 100) ∧ t.outHumFr.map BitVec.toNat = some (b 4 % 100) ∧
      t.outAirpInt.map BitVec.toNat = some ((b 5 + 256 * b 6) / 10) ∧
      t.outAirpFr.map BitVec.toNat = some ((b 5 + 256 * b 6) % 10) ∧
      t.outAccel.map BitVec.toNat = some (b 7) ∧
      t.outBattInt.map BitVec.toNat = some ((b 8 + 256 * b 9) / 100) ∧
      t.outBattFr.map BitVec.toNat = some ((b 8 + 256 * b 9) % 100) ∧
      t.outCputInt.map BitVec.toNat = some (b 10 + b 11 / 100) ∧ t.outCputFr.map BitVec.toNat = some (b 11 % 100) ∧
      t.outSwh.map BitVec.toNat = some (b 12 + 256 * b 13) ∧
      t.outAwh.map BitVec.toNat = some (b 14 + 256 * b 15) ∧
      t.outAper.map BitVec.toNat = some (b 16 + 256 * b 17))

/-- R100, whole: DECODE raises MalformedFrame exactly when `len < 18`, whatever the bytes and the state, and no lane
raises it or stops. -/
def Obligations.MalformedFrameIffShort : Prop :=
  (∀ (len : Nat) (bus : Bus) (s : State), ∃ (o : TxOutcome) (t : State),
    exec (.decode len bus) s = .next t ∧ Delivers s (some o) t ∧ (o = .error .malformedFrame ↔ len < 18)) ∧
  (∀ (len : Nat) (bus bus' : Bus) (s : State), len < 18 → exec (.decode len bus) s = exec (.decode len bus') s) ∧
  ∀ (i : Instr) (s : State), i.row ≠ .decode → ∃ t, exec i s = .next t ∧ t.out = s.out ∧ t.inflight = s.inflight

/-- Taking MalformedFrame (60_exceptions.md R106): nothing is saved and nothing changes but the delivery; no result field
is written, and what was in flight before is unharmed. -/
def Obligations.MalformedFrameHasNoOtherEffect : Prop :=
  ∀ (len : Nat) (bus : Bus) (s : State), len < 18 → ∃ t,
    exec (.decode len bus) s = .next t ∧ Delivers s (some (.error .malformedFrame)) t ∧ t.fields = Fields.empty ∧
    (s.inflight = [] → t = { s with fields := Fields.empty, out := some (.error .malformedFrame) } ∧
      t.outValid = true ∧ t.outMalformed = some true ∧ t.outRecord = none)

/-- R17: the one flag is set exactly when `len < 18` and clear exactly when `len ≥ 18`; no lane sets it. -/
def Obligations.MalformedFlagFollowsTheGuard : Prop :=
  (∀ (len : Nat) (bus : Bus) (s : State), ∃ (o : TxOutcome) (t : State),
    exec (.decode len bus) s = .next t ∧ Delivers s (some o) t ∧
    (o.malformed = true ↔ len < 18) ∧ (o.malformed = false ↔ 18 ≤ len)) ∧
  ∀ (i : Instr) (s t : State), i.row ≠ .decode → exec i s = .next t → t.outMalformed = s.outMalformed

/-- R91: the outcome is one total function of `(len < 18, frame[0..17])`, the same from every state; each field depends
only on the bytes of its own lane; nothing of the transaction remains but its delivery. -/
def Obligations.OutcomeIsAFunctionOfTheOperand : Prop :=
  ∃ f : Bool → Bus → TxOutcome,
    (∀ (len : Nat) (bus : Bus) (s : State), ∃ t,
      exec (.decode len bus) s = .next t ∧ Delivers s (some (f (decide (len < 18)) bus)) t ∧ t.fields = Fields.empty) ∧
    ∀ (l : Lane) (bus bus' : Bus), (∀ k ∈ l.offsets, busByte bus k = busByte bus' k) →
      ∃ r r' : Record, f false bus = .ok r ∧ f false bus' = .ok r' ∧ r.ports l = r'.ports l

/-- R92: all ten fields or none. By the length alone, an outcome with a record of all ten or an outcome with none is
delivered, no result field is left behind, and with LATENCY = 0 every field port carries a value or none does; and no
record is made while any field is unwritten. -/
def Obligations.AllTenFieldsOrNone : Prop :=
  (∀ (len : Nat) (bus : Bus) (s : State), ∃ (o : TxOutcome) (t : State),
    exec (.decode len bus) s = .next t ∧ Delivers s (some o) t ∧ t.fields = Fields.empty ∧
    (len < 18 → o.record = none) ∧ (18 ≤ len → ∃ r, o.record = some r) ∧
    (s.inflight = [] → t.fieldPortsPresent = List.replicate 15 (decide (18 ≤ len)))) ∧
  ∀ f : Fields, (∃ r, f.complete = some r) ↔
    (f.info.isSome ∧ f.temperature.isSome ∧ f.humidity.isSome ∧ f.airPressure.isSome ∧ f.acceleration.isSome ∧
      f.battery.isSome ∧ f.cpuTemperature.isSome ∧ f.significantWaveHeight.isSome ∧ f.averageWaveHeight.isSome ∧
      f.averagePeriod.isSome)

/-- The order in which the lanes are evaluated cannot be observed (10_state.md R14, 92_eei_decisions.md D15): any order
of the ten lanes leaves the same state. -/
def Obligations.LaneOrderIsNotObservable : Prop :=
  ∀ (ls : List Lane) (op : Operand) (s : State), ls.Perm Lane.all → 18 ≤ op.len → ∃ t,
    runLanes (frameMemory op) s ls = .next t ∧ runLanes (frameMemory op) s Lane.all = .next t

/-- Inside DECODE a lane is the instruction its row reads from the same frame, and no lane can fault there (30_encoding.md
R51, 20_memory.md R42). -/
def Obligations.LanesInsideDecodeAreTheirRows : Prop :=
  ∀ (l : Lane) (op : Operand) (s : State), 18 ≤ op.len → ∃ (i : Instr) (t : State),
    decodeRow (.lane l) op = .ok i ∧ runLane (frameMemory op) s l = exec i s ∧ exec i s = .next t

/-- R41: `MemRead` of one and of two bytes, little-endian, where the offsets exist; nothing where one does not (R42). Of
a longer frame the block sees offsets 0 to 17 (R40). -/
def Obligations.MemReadIsDefinedBelowLen : Prop :=
  ∀ (op : Operand) (a : Nat),
    ((frameMemory op).read1 a = if a + 1 ≤ op.len ∧ a + 1 ≤ 18 then some (busByte op.bus a) else none) ∧
    (a + 2 ≤ op.len → a + 2 ≤ 18 → ∃ n, (frameMemory op).read2 a = some n ∧
      n.toNat = (busByte op.bus a).toNat + 256 * (busByte op.bus (a + 1)).toNat) ∧
    (op.len < a + 2 ∨ 18 < a + 2 → (frameMemory op).read2 a = none)

/-- No instruction writes the frame or any input port, or changes a parameter of the block (20_memory.md R37, 10_state.md
R15). -/
def Obligations.NothingWritesTheFrame : Prop :=
  ∀ (i : Instr) (s t : State), exec i s = .next t → t.inputs = s.inputs ∧ t.params = s.params

/-! ### The host's frame -/

/-- `min(len, 2^LEN_W - 1)` on the port never changes an outcome, for every LEN_W from 5 on (20_memory.md R31). -/
def Obligations.SaturationKeepsTheGuard : Prop :=
  ∀ (p : Params) (len : Nat), p.wf →
    p.onLenPort (saturateLen p len) = true ∧ lengthGuard (saturateLen p len) = lengthGuard len

/-- Bytes at offsets 18 and above influence nothing, nor does what a short frame leaves on the bus (20_memory.md R40,
93_implementation_defined.md U11). -/
def Obligations.UnreadBytesInfluenceNothing : Prop :=
  ∀ (p : Params) (pad pad' : Bus) (frame extra : List Byte) (s : State), p.wf →
    (18 ≤ frame.length →
      exec (.decode (saturateLen p (frame ++ extra).length) (frameOnBus pad' (frame ++ extra))) s =
        exec (.decode (saturateLen p frame.length) (frameOnBus pad frame)) s) ∧
    (frame.length < 18 →
      exec (.decode (saturateLen p frame.length) (frameOnBus pad' frame)) s =
        exec (.decode (saturateLen p frame.length) (frameOnBus pad frame)) s)

/-! ### Cycles -/

/-- A step runs the decoded instruction: with a transaction presented and no reset, the step is exec of what the ports
decode to, at the state with this cycle used up; ports that decode to nothing are refused by name. -/
def Obligations.StepRunsTheDecodedInstruction : Prop :=
  ∀ (s : State) (i : InPorts) (rest : List InPorts), s.inputs = i :: rest →
    resetAsserted s.params i = false → i.inValid = true →
    (∀ instr, decodeFrame s.params i.operand = .ok instr → step s = exec instr { s with inputs := rest }) ∧
    (∀ e, decodeFrame s.params i.operand = .error e → step s = .refused (.undecodable e))

/-- `in_valid = 0`, or nothing more from the host: no transaction, every other port ignored, the pipeline goes on
(10_state.md R19, 92_eei_decisions.md D17). -/
def Obligations.IdleCycleIgnoresTheOtherPorts : Prop :=
  ∀ s : State, (∀ i, s.inputs.head? = some i → resetAsserted s.params i = false ∧ i.inValid = false) →
    ∃ t, step s = .next t ∧ Delivers { s with inputs := s.inputs.tail } none t ∧ t.fields = s.fields

/-- A cycle with `rst`: `out_valid = 0`, and everything in flight, with a transaction presented in the cycle, is dropped;
what is left is a block right after reset with its own parameters and the rest of its input (10_state.md R22,
70_reset_and_hazards.md R120, 92_eei_decisions.md D9). -/
def Obligations.ResetCycleDropsEverything : Prop :=
  ∀ (s : State) (i : InPorts) (rest : List InPorts), s.inputs = i :: rest → resetAsserted s.params i = true →
    ∃ t, step s = .next t ∧ t.outValid = false ∧
      t = { State.reset with params := s.params, inputs := rest, inflight := List.replicate s.params.latency none }

/-- After reset no outcome is on the ports, nothing is in flight and no result field has a value (10_state.md R22). The
parameters and the empty input of `State.reset` are the model's choice (log entries 2 and 4) and not claimed here. -/
def Obligations.ResetDeliversNothing : Prop :=
  State.reset.outValid = false ∧ State.reset.outMalformed = none ∧ State.reset.outRecord = none ∧
  State.reset.fieldPortsPresent = List.replicate 15 false ∧
  State.reset.fields = Fields.empty ∧ ∀ o, some o ∉ State.reset.inflight

/-- The ports outside a successful outcome (10_state.md R20, 70_reset_and_hazards.md R124): `out_malformed` has a value
exactly with `out_valid = 1`, and all fifteen field ports have one exactly with `out_malformed = 0`, else none has; and
with a record delivered each port shows its own field of that record (R19). -/
def Obligations.FieldPortsOnlyWithASuccess : Prop :=
  (∀ s : State, s.outMalformed.isSome = s.outValid ∧
    s.fieldPortsPresent = List.replicate 15 (decide (s.outMalformed = some false)) ∧
    s.outRecord.isSome = decide (s.outMalformed = some false)) ∧
  ∀ (s : State) (r : Record), s.out = some (.ok r) →
    s.outValid = true ∧ s.outMalformed = some false ∧ s.outRecord = some r ∧ s.outInfo = some r.info ∧
    s.outTempInt = some r.temperature.int ∧ s.outTempFr = some r.temperature.fr ∧
    s.outHumInt = some r.humidity.int ∧ s.outHumFr = some r.humidity.fr ∧
    s.outAirpInt = some r.airPressure.int ∧ s.outAirpFr = some r.airPressure.fr ∧
    s.outAccel = some r.acceleration ∧ s.outBattInt = some r.battery.int ∧ s.outBattFr = some r.battery.fr ∧
    s.outCputInt = some r.cpuTemperature.int ∧ s.outCputFr = some r.cpuTemperature.fr ∧
    s.outSwh = some r.significantWaveHeight ∧ s.outAwh = some r.averageWaveHeight ∧
    s.outAper = some r.averagePeriod

/-- The invariant holds after reset. -/
def Obligations.ResetMeetsInv : Prop := Inv State.reset

/-- The invariant is kept by every step: the pipeline keeps LATENCY places, no result field outlives its transaction, and
every outcome in flight or delivered stays in the ranges of 10_state.md R13 (R10, R13, R126). -/
def Obligations.StepKeepsInv : Prop :=
  ∀ s t : State, Inv s → step s = .next t → Inv t

/-- The block cannot stall, hang or stop: from every state of the invariant a step answers a next state (44_decode.md
R91, 70_reset_and_hazards.md R125). -/
def Obligations.BlockNeverStops : Prop :=
  ∀ s : State, Inv s → ∃ t, step s = .next t

/-- A frame of any length, truthfully presented to a block with LATENCY = 0, gets the outcome R90 gives for the frame
itself, in the same cycle: the port-level machine refines the source's `decode`. -/
def Obligations.PresentedFrameGetsItsOutcome : Prop :=
  ∀ (s : State) (pad : Bus) (frame : List Byte) (rest : List InPorts), Inv s → s.params.latency = 0 →
    s.inputs = presentFrame s.params pad frame :: rest →
    ∃ (o : TxOutcome) (t : State), step s = .next t ∧ t.out = some o ∧ OutcomeFor frame.length (byteOf frame) o ∧
      t.inputs = rest ∧ t.params = s.params

/-- R107: after a MalformedFrame the next frame is decoded like any other: the block comes to the very state it would
have come to without the short frame. -/
def Obligations.ShortFrameLeavesNoTrace : Prop :=
  ∀ (s : State) (pad pad' : Bus) (short frame : List Byte) (rest : List InPorts), Inv s → s.params.latency = 0 →
    short.length < 18 →
    s.inputs = presentFrame s.params pad short :: presentFrame s.params pad' frame :: rest →
    ∃ (t u : State) (o : TxOutcome),
      step s = .next t ∧ t.out = some (.error .malformedFrame) ∧
      step t = .next u ∧ u.out = some o ∧ OutcomeFor frame.length (byteOf frame) o ∧
      step { s with inputs := presentFrame s.params pad' frame :: rest } = .next u

/-- R126 and R43, over whole runs: without a reset the output ports show, cycle by cycle, what was in flight, then one
outcome per presented transaction in the order of presentation, none dropped, each LATENCY cycles after it was
presented, and each the outcome R90 gives for its own operand, whatever ran before or after. -/
def Obligations.DeliveriesAreOutcomesInOrderAfterLatency : Prop :=
  ∃ f : Operand → TxOutcome,
    (∀ op : Operand, OutcomeFor op.len (fun k => (busByte op.bus k).toNat) (f op)) ∧
    ∀ (n : Nat) (s : State), Inv s → s.noReset →
      deliveries n s =
        (s.inflight ++ s.inputs.map (fun i : InPorts => if i.inValid then some (f i.operand) else none)
          ++ List.replicate n none).take n

/-! ### Text -/

/-- R61: an integer field is its decimal integer; a scaled field over 10 has one fraction digit, over 100 its fraction is
padded to two digits. -/
def Obligations.ResultsAreWrittenAsInR61 : Prop :=
  ∀ r : Record,
    (∀ l ∈ [Lane.info, .accel, .swh, .awh, .aper], r.text l = Nat.repr (r.ports l).1) ∧
    r.text .airp = Nat.repr (r.ports .airp).1 ++ "." ++ Nat.repr (r.ports .airp).2 ∧
    ∀ l ∈ [Lane.temp, .hum, .batt, .cput],
      ((r.ports l).2 < 10 → r.text l = Nat.repr (r.ports l).1 ++ ".0" ++ Nat.repr (r.ports l).2) ∧
      (10 ≤ (r.ports l).2 → r.text l = Nat.repr (r.ports l).1 ++ "." ++ Nat.repr (r.ports l).2)
end

