-- ==== Sys2Proof/Laws/Decode.lean ====
section
/-! SUPPORT. The bytes of the bus and the length port. -/

namespace Sys2Proof

theorem busByte_toNat (bus : Bus) (k : Nat) : (busByte bus k).toNat = bus.toNat / 2 ^ (8 * k) % 256 := by
  simp [busByte, Nat.shiftRight_eq_div_pow]

theorem busByte_getElem (bus : Bus) (k i : Nat) (hi : i < 8) : (busByte bus k)[i] = bus.getLsbD (8 * k + i) := by
  simp [busByte]

/-- Nothing is on the bus past offset 17. -/
theorem busByte_eq_zero_of_ge (bus : Bus) {k : Nat} (hk : 18 ≤ k) : busByte bus k = 0 := by
  ext i hi
  rw [busByte_getElem]
  simp only [BitVec.ofNat_eq_ofNat, BitVec.getElem_zero]
  exact BitVec.getLsbD_of_ge _ _ (by omega)

/-- The byte packed at an offset is read back from it. -/
theorem busByte_packBus (bs : List Byte) : ∀ k, k < 18 → busByte (packBus bs) k = bs.getD k 0 := by
  induction bs with
  | nil => intro k _; ext i hi; simp [packBus, busByte]
  | cons b bs ih =>
    intro k hk
    cases k with
    | zero =>
      ext i hi
      rw [busByte_getElem]
      simp [packBus, hi, show i < 144 by omega]
    | succ k =>
      rw [List.getD_cons_succ, ← ih k (by omega)]
      ext i hi
      rw [busByte_getElem, busByte_getElem]
      simp [packBus, show 8 * (k + 1) + i < 144 by omega, show ¬ 8 * (k + 1) + i < 8 by omega,
        show 8 * (k + 1) + i - 8 = 8 * k + i by omega, BitVec.getLsbD_of_ge b (8 * (k + 1) + i) (by omega)]
      rw [BitVec.getLsbD_eq_getElem]

/-- The bytes placed from offset `a` on are read back there, and every other position is 0. -/
theorem busByte_placeAt (a : Nat) (bs : List Byte) {k : Nat} (hk : k < 18) :
    busByte (placeAt a bs) k = if k < a then 0 else bs.getD (k - a) 0 := by
  rw [placeAt, busByte_packBus _ _ hk]
  simp only [List.getD_eq_getElem?_getD, List.getElem?_append, List.length_replicate, List.getElem?_replicate]
  split <;> simp_all

/-- The saturated length is a number of the port. -/
theorem saturateLen_onLenPort (p : Params) (n : Nat) : p.onLenPort (saturateLen p n) = true := by
  have := Nat.two_pow_pos p.lenW
  rw [Params.onLenPort, saturateLen]
  exact decide_eq_true (by omega)

end Sys2Proof
end

