-- ==== Sys2Proof/Laws/State.lean ====
section
/-! SUPPORT. One lemma per field per update of State, so that no proof unfolds a record update. -/

namespace Sys2Proof.Machine

variable (s : State)

@[simp] theorem State.setInfo_fields (v : BitVec 8) :
    (s.setInfo v).fields = { s.fields with info := some v } := rfl
@[simp] theorem State.setInfo_params (v : BitVec 8) : (s.setInfo v).params = s.params := rfl
@[simp] theorem State.setInfo_inputs (v : BitVec 8) : (s.setInfo v).inputs = s.inputs := rfl
@[simp] theorem State.setInfo_inflight (v : BitVec 8) : (s.setInfo v).inflight = s.inflight := rfl
@[simp] theorem State.setInfo_out (v : BitVec 8) : (s.setInfo v).out = s.out := rfl

@[simp] theorem State.setTemperature_fields (v : Scaled 9 7) :
    (s.setTemperature v).fields = { s.fields with temperature := some v } := rfl
@[simp] theorem State.setTemperature_params (v : Scaled 9 7) : (s.setTemperature v).params = s.params := rfl
@[simp] theorem State.setTemperature_inputs (v : Scaled 9 7) : (s.setTemperature v).inputs = s.inputs := rfl
@[simp] theorem State.setTemperature_inflight (v : Scaled 9 7) : (s.setTemperature v).inflight = s.inflight := rfl
@[simp] theorem State.setTemperature_out (v : Scaled 9 7) : (s.setTemperature v).out = s.out := rfl

@[simp] theorem State.setHumidity_fields (v : Scaled 9 7) :
    (s.setHumidity v).fields = { s.fields with humidity := some v } := rfl
@[simp] theorem State.setHumidity_params (v : Scaled 9 7) : (s.setHumidity v).params = s.params := rfl
@[simp] theorem State.setHumidity_inputs (v : Scaled 9 7) : (s.setHumidity v).inputs = s.inputs := rfl
@[simp] theorem State.setHumidity_inflight (v : Scaled 9 7) : (s.setHumidity v).inflight = s.inflight := rfl
@[simp] theorem State.setHumidity_out (v : Scaled 9 7) : (s.setHumidity v).out = s.out := rfl

@[simp] theorem State.setAirPressure_fields (v : Scaled 13 4) :
    (s.setAirPressure v).fields = { s.fields with airPressure := some v } := rfl
@[simp] theorem State.setAirPressure_params (v : Scaled 13 4) : (s.setAirPressure v).params = s.params := rfl
@[simp] theorem State.setAirPressure_inputs (v : Scaled 13 4) : (s.setAirPressure v).inputs = s.inputs := rfl
@[simp] theorem State.setAirPressure_inflight (v : Scaled 13 4) : (s.setAirPressure v).inflight = s.inflight := rfl
@[simp] theorem State.setAirPressure_out (v : Scaled 13 4) : (s.setAirPressure v).out = s.out := rfl

@[simp] theorem State.setAcceleration_fields (v : BitVec 8) :
    (s.setAcceleration v).fields = { s.fields with acceleration := some v } := rfl
@[simp] theorem State.setAcceleration_params (v : BitVec 8) : (s.setAcceleration v).params = s.params := rfl
@[simp] theorem State.setAcceleration_inputs (v : BitVec 8) : (s.setAcceleration v).inputs = s.inputs := rfl
@[simp] theorem State.setAcceleration_inflight (v : BitVec 8) : (s.setAcceleration v).inflight = s.inflight := rfl
@[simp] theorem State.setAcceleration_out (v : BitVec 8) : (s.setAcceleration v).out = s.out := rfl

@[simp] theorem State.setBattery_fields (v : Scaled 10 7) :
    (s.setBattery v).fields = { s.fields with battery := some v } := rfl
@[simp] theorem State.setBattery_params (v : Scaled 10 7) : (s.setBattery v).params = s.params := rfl
@[simp] theorem State.setBattery_inputs (v : Scaled 10 7) : (s.setBattery v).inputs = s.inputs := rfl
@[simp] theorem State.setBattery_inflight (v : Scaled 10 7) : (s.setBattery v).inflight = s.inflight := rfl
@[simp] theorem State.setBattery_out (v : Scaled 10 7) : (s.setBattery v).out = s.out := rfl

@[simp] theorem State.setCpuTemperature_fields (v : Scaled 9 7) :
    (s.setCpuTemperature v).fields = { s.fields with cpuTemperature := some v } := rfl
@[simp] theorem State.setCpuTemperature_params (v : Scaled 9 7) : (s.setCpuTemperature v).params = s.params := rfl
@[simp] theorem State.setCpuTemperature_inputs (v : Scaled 9 7) : (s.setCpuTemperature v).inputs = s.inputs := rfl
@[simp] theorem State.setCpuTemperature_inflight (v : Scaled 9 7) : (s.setCpuTemperature v).inflight = s.inflight := rfl
@[simp] theorem State.setCpuTemperature_out (v : Scaled 9 7) : (s.setCpuTemperature v).out = s.out := rfl

@[simp] theorem State.setSignificantWaveHeight_fields (v : BitVec 16) :
    (s.setSignificantWaveHeight v).fields = { s.fields with significantWaveHeight := some v } := rfl
@[simp] theorem State.setSignificantWaveHeight_params (v : BitVec 16) : (s.setSignificantWaveHeight v).params = s.params := rfl
@[simp] theorem State.setSignificantWaveHeight_inputs (v : BitVec 16) : (s.setSignificantWaveHeight v).inputs = s.inputs := rfl
@[simp] theorem State.setSignificantWaveHeight_inflight (v : BitVec 16) : (s.setSignificantWaveHeight v).inflight = s.inflight := rfl
@[simp] theorem State.setSignificantWaveHeight_out (v : BitVec 16) : (s.setSignificantWaveHeight v).out = s.out := rfl

@[simp] theorem State.setAverageWaveHeight_fields (v : BitVec 16) :
    (s.setAverageWaveHeight v).fields = { s.fields with averageWaveHeight := some v } := rfl
@[simp] theorem State.setAverageWaveHeight_params (v : BitVec 16) : (s.setAverageWaveHeight v).params = s.params := rfl
@[simp] theorem State.setAverageWaveHeight_inputs (v : BitVec 16) : (s.setAverageWaveHeight v).inputs = s.inputs := rfl
@[simp] theorem State.setAverageWaveHeight_inflight (v : BitVec 16) : (s.setAverageWaveHeight v).inflight = s.inflight := rfl
@[simp] theorem State.setAverageWaveHeight_out (v : BitVec 16) : (s.setAverageWaveHeight v).out = s.out := rfl

@[simp] theorem State.setAveragePeriod_fields (v : BitVec 16) :
    (s.setAveragePeriod v).fields = { s.fields with averagePeriod := some v } := rfl
@[simp] theorem State.setAveragePeriod_params (v : BitVec 16) : (s.setAveragePeriod v).params = s.params := rfl
@[simp] theorem State.setAveragePeriod_inputs (v : BitVec 16) : (s.setAveragePeriod v).inputs = s.inputs := rfl
@[simp] theorem State.setAveragePeriod_inflight (v : BitVec 16) : (s.setAveragePeriod v).inflight = s.inflight := rfl
@[simp] theorem State.setAveragePeriod_out (v : BitVec 16) : (s.setAveragePeriod v).out = s.out := rfl

@[simp] theorem State.clearFields_fields : s.clearFields.fields = Fields.empty := rfl
@[simp] theorem State.clearFields_params : s.clearFields.params = s.params := rfl
@[simp] theorem State.clearFields_inputs : s.clearFields.inputs = s.inputs := rfl
@[simp] theorem State.clearFields_inflight : s.clearFields.inflight = s.inflight := rfl
@[simp] theorem State.clearFields_out : s.clearFields.out = s.out := rfl

@[simp] theorem State.consumePorts_inputs : s.consumePorts.inputs = s.inputs.tail := rfl
@[simp] theorem State.consumePorts_params : s.consumePorts.params = s.params := rfl
@[simp] theorem State.consumePorts_fields : s.consumePorts.fields = s.fields := rfl
@[simp] theorem State.consumePorts_inflight : s.consumePorts.inflight = s.inflight := rfl
@[simp] theorem State.consumePorts_out : s.consumePorts.out = s.out := rfl

@[simp] theorem State.resetCycle_params : s.resetCycle.params = s.params := rfl
@[simp] theorem State.resetCycle_inputs : s.resetCycle.inputs = s.inputs := rfl
@[simp] theorem State.resetCycle_fields : s.resetCycle.fields = Fields.empty := rfl
@[simp] theorem State.resetCycle_inflight : s.resetCycle.inflight = List.replicate s.params.latency none := rfl
@[simp] theorem State.resetCycle_out : s.resetCycle.out = none := rfl

variable (op : Operand)

@[simp] theorem State.placeOperand_inputs : (s.placeOperand op).inputs = presentOperand op :: s.inputs.tail := rfl
@[simp] theorem State.placeOperand_params : (s.placeOperand op).params = s.params := rfl
@[simp] theorem State.placeOperand_fields : (s.placeOperand op).fields = s.fields := rfl
@[simp] theorem State.placeOperand_inflight : (s.placeOperand op).inflight = s.inflight := rfl
@[simp] theorem State.placeOperand_out : (s.placeOperand op).out = s.out := rfl

variable (x : Option TxOutcome)

@[simp] theorem State.advance_params : (s.advance x).params = s.params := by
  unfold State.advance; split <;> rfl
@[simp] theorem State.advance_inputs : (s.advance x).inputs = s.inputs := by
  unfold State.advance; split <;> rfl
@[simp] theorem State.advance_fields : (s.advance x).fields = s.fields := by
  unfold State.advance; split <;> rfl

/-- What comes out of the pipeline is the head of what is in flight with the new cycle behind it. -/
theorem State.advance_out : (s.advance x).out = (s.inflight ++ [x]).headD none := by
  unfold State.advance; split <;> simp_all

/-- What stays in flight is the rest. -/
theorem State.advance_inflight : (s.advance x).inflight = (s.inflight ++ [x]).tail := by
  unfold State.advance; split <;> simp_all

/-- The pipeline keeps its length. -/
@[simp] theorem State.advance_inflight_length : (s.advance x).inflight.length = s.inflight.length := by
  simp [State.advance_inflight]

/-- An outcome in the pipeline after a cycle, or on its output ports, was in flight before or went in. -/
theorem State.mem_of_advance {o : TxOutcome}
    (h : some o ∈ (s.advance x).inflight ∨ (s.advance x).out = some o) : some o ∈ s.inflight ∨ x = some o := by
  rw [State.advance_inflight, State.advance_out] at h
  cases hq : s.inflight with
  | nil => simpa [hq] using h
  | cons y q =>
    simp only [hq, List.cons_append, List.tail_cons, List.headD_cons, List.mem_append, List.mem_singleton] at h
    simp only [List.mem_cons]
    tauto

variable (o : TxOutcome)

@[simp] theorem State.deliver_params : (s.deliver o).params = s.params := by simp [State.deliver]
@[simp] theorem State.deliver_inputs : (s.deliver o).inputs = s.inputs := by simp [State.deliver]
@[simp] theorem State.deliver_fields : (s.deliver o).fields = Fields.empty := by simp [State.deliver]

end Sys2Proof.Machine
end

