-- ==== Sys2Proof/Laws/Ops.lean ====
section
/-! SUPPORT. What each shared operation can do, said once. -/

namespace Sys2Proof.Machine

/-! ### The frame address space -/

/-- A read of a list of cells laid out over a rising run of offsets. -/
theorem read1_map_range' (f : Nat → Byte) (n : Nat) : ∀ a k,
    Memory.read1 ((List.range' a n).map fun j => (j, f j)) k = if a ≤ k ∧ k < a + n then some (f k) else none := by
  induction n with
  | zero => intro a k; simp [Memory.read1]
  | succ n ih =>
    intro a k
    rw [List.range'_succ, List.map_cons, Memory.read1, ih]
    split <;> rename_i h
    · subst h; simp
    · simp only at h
      split <;> rename_i h' <;> split <;> rename_i h'' <;> first | rfl | omega

/-- `MemRead(a, 1)`: the byte at each offset below `len` that reaches the block, and nothing elsewhere. -/
theorem read1_frameMemory (op : Operand) (a : Nat) :
    (frameMemory op).read1 a = if a < op.len ∧ a < 18 then some (busByte op.bus a) else none := by
  rw [frameMemory, List.range_eq_range', read1_map_range', frameBytes]
  simp only [Nat.zero_le, true_and, Nat.zero_add, Nat.lt_min]

theorem wf_map_range' (f : Nat → Byte) (n : Nat) : ∀ a,
    Memory.wf ((List.range' a n).map fun j => (j, f j)) = true := by
  induction n with
  | zero => intro a; rfl
  | succ n ih =>
    intro a
    cases n with
    | zero => rfl
    | succ n =>
      have h := ih (a + 1)
      rw [List.range'_succ, List.map_cons] at h ⊢
      rw [List.range'_succ, List.map_cons, Memory.wf, h]
      simp

/-- The frame is in canonical form. -/
theorem frameMemory_canonical (op : Operand) : (frameMemory op).wf = true := by
  rw [frameMemory, List.range_eq_range']
  exact wf_map_range' _ _ _

/-- A lane of one byte, where the byte exists. -/
theorem withByte_frameMemory (op : Operand) {a : Nat} (ha : a < 18) (hl : 18 ≤ op.len)
    (k : Byte → Host.Outcome State Fault Refusal) :
    withByte (frameMemory op) a k = k (busByte op.bus a) := by
  rw [withByte, read1_frameMemory, if_pos ⟨by omega, ha⟩]

/-- A lane of two bytes, where both exist. -/
theorem withBytes_frameMemory (op : Operand) {a : Nat} (ha : a + 1 < 18) (hl : 18 ≤ op.len)
    (k : Byte → Byte → Host.Outcome State Fault Refusal) :
    withBytes (frameMemory op) a k = k (busByte op.bus a) (busByte op.bus (a + 1)) := by
  rw [withBytes, withByte_frameMemory op (by omega) hl, withByte_frameMemory op ha hl]

/-! ### Running lanes -/

/-- If running a lane answers a next state, the lanes after it run from that state. -/
theorem runLanes_cons {m : Memory} {s t : State} {l : Lane} {ls : List Lane} (h : runLane m s l = .next t) :
    runLanes m s (l :: ls) = runLanes m t ls := by
  rw [runLanes, h]

/-- A run of lanes that answers a next state went through one after its first lane. -/
theorem runLanes_cons_next {m : Memory} {s u : State} {l : Lane} {ls : List Lane}
    (h : runLanes m s (l :: ls) = .next u) : ∃ t, runLane m s l = .next t ∧ runLanes m t ls = .next u := by
  rw [runLanes] at h
  split at h
  · exact ⟨_, ‹_›, h⟩
  · cases h
  · cases h

/-! ### Delivery -/

/-- A delivery answers a next state exactly with a complete record. -/
theorem deliverRecord_next {s t : State} (h : s.deliverRecord = .next t) :
    ∃ r, s.fields.complete = some r ∧ t = s.deliver (.ok r) := by
  rw [State.deliverRecord] at h
  split at h
  · cases h; exact ⟨_, ‹_›, rfl⟩
  · cases h

/-- With a complete record, a delivery answers. -/
theorem deliverRecord_of_complete {s : State} {r : Record} (h : s.fields.complete = some r) :
    s.deliverRecord = .next (s.deliver (.ok r)) := by
  simp only [State.deliverRecord, h]

/-- A delivery depends on the result fields and the old output ports in nothing. -/
theorem deliver_congr {s t : State} (o : TxOutcome) (hp : s.params = t.params) (hi : s.inputs = t.inputs)
    (hq : s.inflight = t.inflight) : s.deliver o = t.deliver o := by
  obtain ⟨p, i, f, q, x⟩ := s
  obtain ⟨p', i', f', q', x'⟩ := t
  simp only at hp hi hq
  subst hp hi hq
  cases q <;> rfl

/-- A complete record holds every field that was written. -/
theorem complete_eq_some {f : Fields} {r : Record} (h : f.complete = some r) :
    f = { info := some r.info, temperature := some r.temperature, humidity := some r.humidity,
          airPressure := some r.airPressure, acceleration := some r.acceleration, battery := some r.battery,
          cpuTemperature := some r.cpuTemperature, significantWaveHeight := some r.significantWaveHeight,
          averageWaveHeight := some r.averageWaveHeight, averagePeriod := some r.averagePeriod } := by
  unfold Fields.complete at h
  split at h
  · cases h; rfl
  · cases h

end Sys2Proof.Machine
end

