-- ==== Sys2Proof/Laws/Cycle.lean ====
section
/-! SUPPORT. What one cycle can do, said once. -/

namespace Sys2Proof.Machine

/-- If a cycle answers a next state, it was a reset cycle, a cycle with a transaction whose instruction answered that
state, or an idle cycle. -/
theorem runCycle_cases {i : InPorts} {s t : State} (h : runCycle i s = .next t) :
    (resetAsserted s.params i = true ∧ t = s.resetCycle) ∨
    (resetAsserted s.params i = false ∧ i.inValid = true ∧ s.params.onLenPort i.inLen = true ∧
      exec (.decode i.inLen i.inFrame) s = .next t) ∨
    (resetAsserted s.params i = false ∧ i.inValid = false ∧ t = s.advance none) := by
  unfold runCycle at h
  split at h
  · cases h; exact .inl ⟨‹_›, rfl⟩
  · rename_i hr
    split at h
    · rename_i hv
      by_cases hp : s.params.onLenPort i.inLen = true
      · simp only [decodeFrame, InPorts.operand, hp, if_true, decodeRow] at h
        exact .inr (.inl ⟨by simpa using hr, hv, hp, h⟩)
      · simp [decodeFrame, InPorts.operand, hp] at h
    · cases h; exact .inr (.inr ⟨by simpa using hr, by simp_all, rfl⟩)

/-- The step after a word is placed runs what the decoder reads from it. -/
theorem step_withFetchWord {s : State} {nbits w : Nat} {i : Instr}
    (h : decodeFrame s.params (tableOperand s.params nbits w) = .ok i) :
    step (s.withFetchWord nbits w) = exec i { s with inputs := s.inputs.tail } := by
  have hop : (presentOperand (tableOperand s.params nbits w)).operand = tableOperand s.params nbits w := rfl
  have hr : resetAsserted s.params (presentOperand (tableOperand s.params nbits w)) = false := by
    simp [resetAsserted, presentOperand]
  have hv : (presentOperand (tableOperand s.params nbits w)).inValid = true := rfl
  simp only [step, State.withFetchWord, State.currentPorts, State.consumePorts, State.placeOperand,
    List.headD_cons, List.tail_cons, runCycle, hr, hv, hop, h, Bool.false_eq_true, if_false, if_true]

end Sys2Proof.Machine
end

