-- ==== Sys2Proof/Laws/Operands.lean ====
section
/-! SUPPORT. Each operand-assembly function as arithmetic on natural numbers: no narrowing loses a value. -/

namespace Sys2Proof.Machine

theorem raw8_eq (v : Byte) : raw8 v = v := by simp [raw8]

theorem compose16_nat (lo hi : Byte) : (compose16 lo hi).toNat = lo.toNat + 256 * hi.toNat := by
  have := lo.isLt
  have := hi.isLt
  simp only [compose16, BitVec.toNat_ofNat]
  omega

theorem fix100_int_nat (w f : Byte) : (fix100 w f).int.toNat = w.toNat + f.toNat / 100 := by
  have := w.isLt
  have := f.isLt
  simp only [fix100, fracDivisor, BitVec.toNat_ofNat]
  omega

theorem fix100_fr_nat (w f : Byte) : (fix100 w f).fr.toNat = f.toNat % 100 := by
  simp only [fix100, fracDivisor, BitVec.toNat_ofNat]
  omega

theorem scale10_int_nat (n : BitVec 16) : (scale 10 13 4 n).int.toNat = n.toNat / 10 := by
  have := n.isLt
  simp only [scale, BitVec.toNat_ofNat]
  omega

theorem scale10_fr_nat (n : BitVec 16) : (scale 10 13 4 n).fr.toNat = n.toNat % 10 := by
  simp only [scale, BitVec.toNat_ofNat]
  omega

theorem scale100_int_nat (n : BitVec 16) : (scale 100 10 7 n).int.toNat = n.toNat / 100 := by
  have := n.isLt
  simp only [scale, BitVec.toNat_ofNat]
  omega

theorem scale100_fr_nat (n : BitVec 16) : (scale 100 10 7 n).fr.toNat = n.toNat % 100 := by
  simp only [scale, BitVec.toNat_ofNat]
  omega

/-- Quotient and remainder over a divisor stand for the exact quotient (44_decode.md R93). -/
theorem quot_add_rem_div (n : Nat) {d : Nat} (hd : 0 < d) :
    ((n / d : Nat) : ℚ) + ((n % d : Nat) : ℚ) / (d : ℚ) = (n : ℚ) / (d : ℚ) := by
  have h : (n : ℚ) = (d : ℚ) * ((n / d : Nat) : ℚ) + ((n % d : Nat) : ℚ) := by exact_mod_cast (Nat.div_add_mod n d).symm
  have hd' : (d : ℚ) ≠ 0 := by exact_mod_cast hd.ne'
  rw [h]
  field_simp

end Sys2Proof.Machine
end

