-- ==== Sys2Proof/Laws/PerInstr.lean ====
section
/-! SUPPORT. Per-instruction families: statements about the instruction as syntax, one lemma per constructor. -/

namespace Sys2Proof.Laws.OwnBytes

/-- An instruction's word has 0 at every byte its row does not read (30_encoding.md R51). -/
def Statement (i : Instr) : Prop := ∀ k, k < 18 → k ∉ i.row.offsets → busByte (encode i).bus k = 0

/-- Bytes placed at `a` leave every position outside them 0. -/
theorem placeAt_outside (a : Nat) (bs : List Byte) {k : Nat} (hk : k < 18) (h : k < a ∨ a + bs.length ≤ k) :
    busByte (placeAt a bs) k = 0 := by
  rw [busByte_placeAt a bs hk]
  split
  · rfl
  · rw [List.getD_eq_default _ _ (by omega)]

/-- A lane of one byte at offset `a`. -/
theorem of_one_byte {i : Instr} (a : Nat) (v : Byte) (he : (encode i).bus = placeAt a [v])
    (ho : i.row.offsets = [a]) : Statement i := by
  intro k hk h
  rw [ho, List.mem_singleton] at h
  rw [he]
  exact placeAt_outside a _ hk (by simp only [List.length_cons, List.length_nil]; omega)

/-- A lane of two bytes at offsets `a` and `a + 1`. -/
theorem of_two_bytes {i : Instr} (a : Nat) (x y : Byte) (he : (encode i).bus = placeAt a [x, y])
    (ho : i.row.offsets = [a, a + 1]) : Statement i := by
  intro k hk h
  rw [ho, List.mem_cons, List.mem_singleton] at h
  rw [he]
  exact placeAt_outside a _ hk (by simp only [List.length_cons, List.length_nil]; omega)

theorem info (v : Byte) : Statement (.info v) := of_one_byte 0 v rfl rfl
theorem temp (w f : Byte) : Statement (.temp w f) := of_two_bytes 1 w f rfl rfl
theorem hum (w f : Byte) : Statement (.hum w f) := of_two_bytes 3 w f rfl rfl
theorem airp (lo hi : Byte) : Statement (.airp lo hi) := of_two_bytes 5 lo hi rfl rfl
theorem accel (v : Byte) : Statement (.accel v) := of_one_byte 7 v rfl rfl
theorem batt (lo hi : Byte) : Statement (.batt lo hi) := of_two_bytes 8 lo hi rfl rfl
theorem cput (w f : Byte) : Statement (.cput w f) := of_two_bytes 10 w f rfl rfl
theorem swh (lo hi : Byte) : Statement (.swh lo hi) := of_two_bytes 12 lo hi rfl rfl
theorem awh (lo hi : Byte) : Statement (.awh lo hi) := of_two_bytes 14 lo hi rfl rfl
theorem aper (lo hi : Byte) : Statement (.aper lo hi) := of_two_bytes 16 lo hi rfl rfl
theorem decode (len : Nat) (frame : Bus) : Statement (.decode len frame) := by
  intro k hk h
  exact absurd (List.mem_range.mpr hk) h

end Sys2Proof.Laws.OwnBytes
end

