-- ==== Sys2Proof/Laws/Ports.lean ====
section
/-! SUPPORT. The record behind the field ports in each of the three cases of the output ports, said once. -/

namespace Sys2Proof.Machine

/-- No outcome is delivered: no record. -/
theorem State.outRecord_of_none {s : State} (h : s.out = none) : s.outRecord = none := by
  rw [State.outRecord, h, Option.bind_none]

/-- MalformedFrame is delivered: no record. -/
theorem State.outRecord_of_error {s : State} {e : TxError} (h : s.out = some (.error e)) : s.outRecord = none := by
  cases e
  rw [State.outRecord, h, Option.bind_some, TxOutcome.record]

/-- A success is delivered: its record. -/
theorem State.outRecord_of_ok {s : State} {r : Record} (h : s.out = some (.ok r)) : s.outRecord = some r := by
  rw [State.outRecord, h, Option.bind_some, TxOutcome.record]

end Sys2Proof.Machine
end

