-- ==== Sys2Proof/Tests/Slice0.lean ====
section
/-! SUPPORT. Tests, with expected results from spec/95_test_vectors.md (the section is named) or worked by hand from the
spec's tables, and for every statement with hypotheses a witness: a concrete state and operands that meet them. -/

namespace Sys2Proof.Tests
open Sys2Proof.Machine

/-! ### WellFormed -/

theorem test_wellFormed_refuses_len_beyond_port : (Instr.decode 256 0).wellFormed Params.reference = false := by decide
theorem test_wellFormed_accepts_port_maximum : (Instr.decode 255 0).wellFormed Params.reference = true := by decide
theorem test_wellFormed_least_port : (Instr.decode 32 0).wellFormed ⟨5, 0, false⟩ = false ∧
    (Instr.decode 31 0).wellFormed ⟨5, 0, false⟩ = true := by decide
theorem test_wellFormed_accepts_short_frame : (Instr.decode 0 0).wellFormed Params.reference = true := by decide

/-! ### Decode: each word written from the bit positions of R50 -/

theorem test_word_info : decodeRow (.lane .info) ⟨18, 0x01#144⟩ = .ok (.info 1) := by rfl
theorem test_word_temp : decodeRow (.lane .temp) ⟨18, 0x321600#144⟩ = .ok (.temp 22 50) := by rfl
theorem test_word_hum : decodeRow (.lane .hum) ⟨18, 0x193C000000#144⟩ = .ok (.hum 60 25) := by rfl
theorem test_word_airp : decodeRow (.lane .airp) ⟨18, 0x27920000000000#144⟩ = .ok (.airp 146 39) := by rfl
theorem test_word_accel : decodeRow (.lane .accel) ⟨18, 0x0300000000000000#144⟩ = .ok (.accel 3) := by rfl
theorem test_word_batt : decodeRow (.lane .batt) ⟨18, 0x04020000000000000000#144⟩ = .ok (.batt 2 4) := by rfl
theorem test_word_cput : decodeRow (.lane .cput) ⟨18, 0x0A1E00000000000000000000#144⟩ = .ok (.cput 30 10) := by rfl
theorem test_word_swh : decodeRow (.lane .swh) ⟨18, 0x0605000000000000000000000000#144⟩ = .ok (.swh 5 6) := by rfl
theorem test_word_awh : decodeRow (.lane .awh) ⟨18, 0x80000000000000000000000000000000#144⟩ = .ok (.awh 0 128) := by rfl
theorem test_word_aper : decodeRow (.lane .aper) ⟨18, 0x000A00000000000000000000000000000000#144⟩ = .ok (.aper 10 0) := by
  rfl
theorem test_word_decode : decodeTableWord 144 0x000A003200640A1E040203000A193C321601
    = some (.decode 18 0x000A003200640A1E040203000A193C321601#144) := by rfl
/-- 95, 2.7, first frame. -/
theorem test_bytes_to_bus : packBus [0, 1, 2, 3, 4, 5, 6, 7, 8, 9, 10, 11, 12, 13, 14, 15, 16, 17]
    = 0x11100F0E0D0C0B0A09080706050403020100#144 := by decide
/-- 95, P4: bytes 18 and 19 are not on the bus, and the length is 20. -/
theorem test_long_frame_bytes : decodeBytes Params.reference
    [7, 19, 99, 45, 100, 146, 39, 128, 159, 1, 41, 200, 5, 6, 0, 1, 255, 0, 0xDE, 0xAD]
    = .ok (.decode 20 0x00FF01000605C829019F802792642D631307#144) := by rfl
theorem test_lane_row_of_short_frame : decodeRow (.lane .info) ⟨17, 1⟩ = .error .shortFrame := by rfl
theorem test_len_not_on_port : decodeFrame Params.reference ⟨256, 0⟩ = .error .lenNotOnPort := by rfl
theorem test_encode_batt : encode (.batt 2 4) = ⟨18, 0x04020000000000000000#144⟩ := by decide

/-! ### Operand assembly (95, 2.2 to 2.5; section 4) -/

theorem test_fix100_carry : fix100 22 150 = ⟨23, 50⟩ ∧ fix100 0 199 = ⟨1, 99⟩ ∧ fix100 0 200 = ⟨2, 0⟩ := by decide
theorem test_fix100_ninth_bit : fix100 255 100 = ⟨256, 0⟩ ∧ fix100 255 255 = ⟨257, 55⟩ := by decide
theorem test_scale10_top_bit : scale 10 13 4 (compose16 0 128) = ⟨3276, 8⟩ := by decide
theorem test_scale100_example : scale 100 10 7 (compose16 159 1) = ⟨4, 15⟩ := by decide
theorem test_compose_is_not_big_endian : compose16 5 6 = 1541 ∧ compose16 6 5 = 1286 := by decide

/-! ### The lanes: the written field after one instruction from reset -/

/-- The result fields an instruction leaves, from reset. -/
def fieldsAfter (i : Instr) : Fields :=
  match exec i State.reset with
  | .next t => t.fields
  | .fault _ => Fields.empty
  | .refused _ => Fields.empty

theorem test_info_unsigned : (fieldsAfter (.info 255)).info = some 255 := by decide
theorem test_temp_not_clamped : (fieldsAfter (.temp 22 150)).temperature = some ⟨23, 50⟩ := by decide
theorem test_hum_over_100_percent : (fieldsAfter (.hum 99 100)).humidity = some ⟨100, 0⟩ := by decide
theorem test_airp_divisor_10 : (fieldsAfter (.airp 10 0)).airPressure = some ⟨1, 0⟩ := by decide
theorem test_airp_maximum : (fieldsAfter (.airp 255 255)).airPressure = some ⟨6553, 5⟩ := by decide
theorem test_accel_unsigned : (fieldsAfter (.accel 128)).acceleration = some 128 := by decide
theorem test_batt_corrected_example : (fieldsAfter (.batt 2 4)).battery = some ⟨10, 26⟩ := by decide
theorem test_cput_hundredths : (fieldsAfter (.cput 30 10)).cpuTemperature = some ⟨30, 10⟩ := by decide
theorem test_swh_little_endian : (fieldsAfter (.swh 52 18)).significantWaveHeight = some 0x1234 := by decide
theorem test_awh_unsigned : (fieldsAfter (.awh 255 255)).averageWaveHeight = some 65535 := by decide
theorem test_aper_unscaled : (fieldsAfter (.aper 10 0)).averagePeriod = some 10 := by decide
theorem test_lane_writes_one_field : fieldsAfter (.aper 10 0) = { Fields.empty with averagePeriod := some 10 } := by decide

/-! ### Transactions through the ports, one step from reset -/

/-- The reset state with a frame presented in the coming cycle, whatever `pad` has in the positions it does not have. -/
def presenting (pad : Bus) (frame : List Byte) : State :=
  { State.reset with inputs := [presentFrame Params.reference pad frame] }

/-- The output ports after one step. -/
def outAfter (s : State) : Option TxOutcome :=
  match step s with
  | .next t => t.out
  | .fault _ => none
  | .refused _ => none

/-- The frame of 95, P1. -/
def frameP1 : List Byte := [1, 22, 50, 60, 25, 10, 0, 3, 2, 4, 30, 10, 100, 0, 50, 0, 10, 0]

def recordP1 : Record := ⟨1, ⟨22, 50⟩, ⟨60, 25⟩, ⟨1, 0⟩, 3, ⟨10, 26⟩, ⟨30, 10⟩, 100, 50, 10⟩

theorem test_P1 : outAfter (presenting 0 frameP1) = some (.ok recordP1) := by decide
/-- 95, P1: the fifteen field ports, each with a number of its own or told apart by its neighbours. -/
theorem test_P1_ports : (match step (presenting 0 frameP1) with
    | .next t => [t.outInfo.map BitVec.toNat, t.outTempInt.map BitVec.toNat, t.outTempFr.map BitVec.toNat,
        t.outHumInt.map BitVec.toNat, t.outHumFr.map BitVec.toNat, t.outAirpInt.map BitVec.toNat,
        t.outAirpFr.map BitVec.toNat, t.outAccel.map BitVec.toNat, t.outBattInt.map BitVec.toNat,
        t.outBattFr.map BitVec.toNat, t.outCputInt.map BitVec.toNat, t.outCputFr.map BitVec.toNat,
        t.outSwh.map BitVec.toNat, t.outAwh.map BitVec.toNat, t.outAper.map BitVec.toNat]
    | .fault _ => []
    | .refused _ => [])
    = [1, 22, 50, 60, 25, 1, 0, 3, 10, 26, 30, 10, 100, 50, 10].map some := by decide
/-- 95, P2, second transaction. -/
theorem test_all_ones : outAfter (presenting 0 (List.replicate 18 255))
    = some (.ok ⟨255, ⟨257, 55⟩, ⟨257, 55⟩, ⟨6553, 5⟩, 255, ⟨655, 35⟩, ⟨257, 55⟩, 65535, 65535, 65535⟩) := by decide
/-- 95, P3: 17 bytes. -/
theorem test_P3_short : outAfter (presenting (-1) (frameP1.take 17)) = some (.error .malformedFrame) := by decide
theorem test_empty_frame : outAfter (presenting 7 []) = some (.error .malformedFrame) := by decide
/-- 95, P4: 20 bytes. -/
theorem test_P4_long : outAfter (presenting 0
      [7, 19, 99, 45, 100, 146, 39, 128, 159, 1, 41, 200, 5, 6, 0, 1, 255, 0, 0xDE, 0xAD])
    = some (.ok ⟨7, ⟨19, 99⟩, ⟨46, 0⟩, ⟨1013, 0⟩, 128, ⟨4, 15⟩, ⟨43, 0⟩, 1541, 256, 255⟩) := by decide
/-- 95, P5. -/
theorem test_P5_corners : outAfter (presenting 0
      [255, 22, 150, 99, 100, 9, 0, 0, 99, 0, 0, 255, 255, 255, 1, 0, 0, 128])
    = some (.ok ⟨255, ⟨23, 50⟩, ⟨100, 0⟩, ⟨0, 9⟩, 0, ⟨0, 99⟩, ⟨2, 55⟩, 65535, 1, 32768⟩) := by decide
/-- 95, 2.7, second frame: the bytes of every pair exchanged. -/
theorem test_exchanged_pairs : outAfter (presenting 0
      [1, 50, 22, 25, 60, 0, 10, 3, 4, 2, 10, 30, 0, 100, 0, 50, 0, 10])
    = some (.ok ⟨1, ⟨50, 22⟩, ⟨25, 60⟩, ⟨256, 0⟩, 3, ⟨5, 16⟩, ⟨10, 30⟩, 25600, 12800, 2560⟩) := by decide
/-- 95, 2.6: a frame of 300 bytes saturates `in_len` to 255. -/
theorem test_saturated_len : saturateLen Params.reference 300 = 255 := by decide
theorem test_fetch_word_runs_decode :
    outAfter (State.reset.withFetchWord 144 0x000A003200640A1E040203000A193C321601) = some (.ok recordP1) := by decide
/-- With LATENCY = 1 the outcome is not yet on the ports in the cycle it is presented (R126). -/
theorem test_latency_delays :
    outAfter ⟨⟨8, 1, true⟩, [presentFrame ⟨8, 1, true⟩ 0 frameP1], Fields.empty, [none], none⟩ = none := by decide
/-- With LATENCY = 1 the outcome on the ports is the one presented a cycle before (R126). -/
theorem test_latency_delivers_earlier : outAfter ⟨⟨8, 1, true⟩, [], Fields.empty, [some (.ok recordP1)], none⟩
    = some (.ok recordP1) := by decide
/-- `rst` drops what is in flight and what is presented (R22). -/
theorem test_reset_drops :
    outAfter ⟨⟨8, 1, true⟩, [⟨true, true, 18, 0⟩], Fields.empty, [some (.ok recordP1)], none⟩ = none := by decide
/-- A block without the port `rst` takes no notice of it (R120). -/
theorem test_no_rst_port : outAfter ⟨⟨8, 0, false⟩, [⟨true, true, 17, 0⟩], Fields.empty, [], none⟩
    = some (.error .malformedFrame) := by decide
/-- A number that does not fit `in_len` is refused by name (U7). -/
theorem test_len_refused : (match step ⟨⟨8, 0, false⟩, [⟨false, true, 256, 0⟩], Fields.empty, [], none⟩ with
    | .refused r => some r
    | .next _ => none
    | .fault _ => none) = some (.undecodable .lenNotOnPort) := by decide

/-! ### Memory and text -/

theorem test_read_in_and_out_of_frame : (frameMemory ⟨2, 0x0605#144⟩).read1 1 = some 6 ∧
    (frameMemory ⟨2, 0x0605#144⟩).read1 2 = none ∧ (frameMemory ⟨2, 0x0605#144⟩).read2 0 = some 1541 ∧
    (frameMemory ⟨2, 0x0605#144⟩).read2 1 = none := by decide
theorem test_memory_wf_refuses_disorder : Memory.wf [(1, 0), (1, 0)] = false := by decide
/-- R61: `(10, 2)` over 100 is 10.02. -/
theorem test_text_padding : textHundredths (⟨10, 2⟩ : Scaled 10 7) = "10.02" ∧
    textTenths (⟨1013, 0⟩ : Scaled 13 4) = "1013.0" := by decide
theorem test_text_notation : instrText (.temp 22 50) = "TEMP 22, 50" ∧ decodeText [] = "DECODE []" := by decide
/-- 95, P1. -/
theorem test_text_bus : busText 0x000A003200640A1E040203000A193C321601#144 = "0x000A003200640A1E040203000A193C321601" := by
  decide
/-- spec/opcode_table.json, row ACCEL. -/
theorem test_text_pattern_accel : rowPattern (.lane .accel)
    = String.ofList (List.replicate 80 'x' ++ List.replicate 8 'h' ++ List.replicate 56 'x') := by rfl

/-! ### Witnesses: concrete states and operands that meet the hypotheses of each statement -/

theorem witness_PortsDecodeToTheTransaction :
    Params.reference.onLenPort 255 = true ∧ Params.reference.onLenPort 256 = false := by decide

theorem witness_LaneRowReadsExactlyItsOwnBytes :
    (17 < 18 ∧ 18 ≤ 18) ∧ ∀ k ∈ Lane.offsets .aper, busByte (placeAt 16 [10, 0]) k = busByte (placeAt 15 [7, 10, 0]) k := by
  decide

theorem witness_EachByteBelongsToOneLane : 17 < 18 ∧ 17 ∈ Lane.offsets .aper := by decide

theorem witness_TwoByteFieldIsABusSlice : 0 + 1 < 18 ∧ 16 + 1 < 18 := by decide

theorem witness_ComposeIsLittleEndianAndBijective : compose16 5 6 = 1541 := by decide

theorem witness_Fix100IsExact : (99#8).toNat ≤ 99 ∧ (100 ≤ (100#8).toNat ∧ (199#8).toNat ≤ 199) ∧ 200 ≤ (200#8).toNat := by
  decide

theorem witness_EveryValueInRangeIsReached : 25755 ≤ 25755 ∧ 65535 ≤ 65535 := by decide

/-- For the four statements of lane rules: a frame of the least accepted length. -/
theorem witness_LaneRules : 18 ≤ (⟨18, 0x01#144⟩ : Operand).len := by decide

theorem witness_LaneWritesOnlyItsField : ∃ t, (Instr.temp 22 50).row ≠ .decode ∧
    exec (.temp 22 50) State.reset = .next t ∧ (Instr.temp 22 50).row ≠ .lane .info ∧
    (Instr.info 1).row ≠ .lane .temp := ⟨_, by decide, rfl, by decide, by decide⟩

theorem witness_DecodeFieldPorts : 18 ≤ 18 ∧ State.reset.inflight = [] := by decide

theorem witness_MalformedFrameIffShort : 17 < 18 ∧ 0 < 18 ∧ (Instr.info 1).row ≠ .decode := by decide

theorem witness_MalformedFrameHasNoOtherEffect : 17 < 18 ∧ State.reset.inflight = [] := by decide

theorem witness_MalformedFlagFollowsTheGuard : ∃ t, (Instr.aper 1 2).row ≠ .decode ∧
    exec (.aper 1 2) State.reset = .next t := ⟨_, by decide, rfl⟩

theorem witness_OutcomeIsAFunctionOfTheOperand :
    ∀ k ∈ Lane.offsets .accel, busByte 0x03FF000000000000#144 k = busByte 0x0300000000000000#144 k := by decide

theorem witness_AllTenFieldsOrNone : 17 < 18 ∧ 18 ≤ 18 ∧ State.reset.inflight = [] := by decide

theorem witness_LaneOrderIsNotObservable :
    (Lane.all.reverse).Perm Lane.all ∧ 18 ≤ (⟨18, 0x01#144⟩ : Operand).len := ⟨List.reverse_perm _, by decide⟩

theorem witness_LanesInsideDecodeAreTheirRows : 18 ≤ (⟨255, 0x01#144⟩ : Operand).len := by decide

/-- The boundary of each clause: the last pair of a full frame, and pairs past `len` and past the bus. -/
theorem witness_MemReadIsDefinedBelowLen : (16 + 2 ≤ 18 ∧ 16 + 2 ≤ 18) ∧ 17 < 16 + 2 ∧ 18 < 17 + 2 := by decide

theorem witness_NothingWritesTheFrame : ∃ t, exec (.decode 17 0) State.reset = .next t := ⟨_, rfl⟩

/-- For the statements of the host's frame: LEN_W at its least value, a frame on each side of the guard. -/
theorem witness_HostFrame : Params.wf ⟨5, 0, false⟩ ∧ 18 ≤ frameP1.length ∧ (frameP1.take 17).length < 18 := by decide

theorem witness_StepRunsTheDecodedInstruction :
    (presenting 0 frameP1).inputs = presentFrame Params.reference 0 frameP1 :: [] ∧
    resetAsserted Params.reference (presentFrame Params.reference 0 frameP1) = false ∧
    (presentFrame Params.reference 0 frameP1).inValid = true ∧
    decodeFrame Params.reference (presentFrame Params.reference 0 frameP1).operand
      = .ok (.decode 18 0x000A003200640A1E040203000A193C321601#144) ∧
    decodeFrame Params.reference ⟨256, 0⟩ = .error .lenNotOnPort := ⟨rfl, rfl, rfl, rfl, rfl⟩

/-- An idle cycle with other ports set, and no cycle at all. -/
theorem witness_IdleCycleIgnoresTheOtherPorts :
    (∀ i, ([⟨false, false, 17, -1⟩] : List InPorts).head? = some i →
      resetAsserted Params.reference i = false ∧ i.inValid = false) ∧ State.reset.inputs.head? = none := by
  refine ⟨?_, rfl⟩
  intro i h
  cases h
  decide

theorem witness_FieldPortsOnlyWithASuccess :
    (⟨Params.reference, [], Fields.empty, [], some (.ok recordP1)⟩ : State).out = some (.ok recordP1) := by decide

theorem witness_ResetCycleDropsEverything : resetAsserted ⟨8, 1, true⟩ ⟨true, true, 18, 0⟩ = true := by decide

/-- A state of the invariant with a frame presented, in a block with LATENCY = 0 and no reset. -/
theorem presenting_inv (pad : Bus) (frame : List Byte) : Inv (presenting pad frame) where
  params := by show 5 ≤ 8; omega
  inflight := rfl
  fields := rfl
  inputs := by
    intro i hi
    simp only [presenting, List.mem_singleton] at hi
    subst hi
    exact saturateLen_onLenPort _ _
  flying := by intro o ho; simp [presenting, State.reset] at ho
  delivered := by intro o ho; simp [presenting, State.reset] at ho

theorem witness_StepKeepsInv : ∃ t, Inv (presenting 0 frameP1) ∧ step (presenting 0 frameP1) = .next t :=
  ⟨_, presenting_inv _ _, rfl⟩

theorem witness_BlockNeverStops : Inv (presenting 0 frameP1) := presenting_inv _ _

theorem witness_PresentedFrameGetsItsOutcome : Inv (presenting (-1) (frameP1.take 17)) ∧
    (presenting (-1) (frameP1.take 17)).params.latency = 0 ∧
    (presenting (-1) (frameP1.take 17)).inputs = [presentFrame Params.reference (-1) (frameP1.take 17)] :=
  ⟨presenting_inv _ _, rfl, rfl⟩

/-- 95, P3: the short frame, then the whole one. -/
theorem witness_ShortFrameLeavesNoTrace :
    ∃ s : State, Inv s ∧ s.params.latency = 0 ∧ (frameP1.take 17).length < 18 ∧
      s.inputs = presentFrame s.params 5 (frameP1.take 17) :: presentFrame s.params 0 frameP1 :: [] := by
  refine ⟨⟨Params.reference, [presentFrame Params.reference 5 (frameP1.take 17), presentFrame Params.reference 0 frameP1],
    Fields.empty, [], none⟩, ⟨by decide, by decide, rfl, ?_, by simp, by simp⟩, rfl, by decide, rfl⟩
  intro i hi
  simp only [List.mem_cons, List.not_mem_nil, or_false] at hi
  rcases hi with rfl | rfl <;> exact saturateLen_onLenPort _ _

theorem witness_DeliveriesAreOutcomesInOrderAfterLatency :
    Inv (presenting 0 frameP1) ∧ (presenting 0 frameP1).noReset := by
  refine ⟨presenting_inv _ _, ?_⟩
  intro i hi
  simp only [presenting, List.mem_singleton] at hi
  subst hi
  decide

theorem witness_ResultsAreWrittenAsInR61 :
    (recordP1.ports .airp).2 = 0 ∧ ((⟨1, ⟨22, 9⟩, ⟨60, 10⟩, ⟨1, 0⟩, 3, ⟨10, 26⟩, ⟨30, 10⟩, 100, 50, 10⟩ : Record).ports .temp).2 < 10 ∧
    10 ≤ ((⟨1, ⟨22, 9⟩, ⟨60, 10⟩, ⟨1, 0⟩, 3, ⟨10, 26⟩, ⟨30, 10⟩, 100, 50, 10⟩ : Record).ports .hum).2 := by decide

end Sys2Proof.Tests
end

section
/-! SUPPORT. What a lane's row reads, and what encoding an instruction puts back. -/

namespace Sys2Proof

/-- A lane reads the same instruction from two frames exactly when they agree at the lane's offsets (R39). -/
theorem laneOfBus_eq_iff (l : Lane) (bus bus' : Bus) :
    laneOfBus bus l = laneOfBus bus' l ↔ ∀ k ∈ l.offsets, busByte bus k = busByte bus' k := by
  cases l <;> simp [laneOfBus, Lane.offsets]

@[simp] theorem row_laneOfBus (bus : Bus) (l : Lane) : (laneOfBus bus l).row = .lane l := by
  cases l <;> rfl

/-- The first byte placed at `a`. -/
theorem busByte_placeAt_fst {a : Nat} (x : Byte) (bs : List Byte) (ha : a < 18) :
    busByte (placeAt a (x :: bs)) a = x := by
  simp [busByte_placeAt _ _ ha]

/-- The second byte placed at `a`. -/
theorem busByte_placeAt_snd {a : Nat} (x y : Byte) (bs : List Byte) (ha : a + 1 < 18) :
    busByte (placeAt a (x :: y :: bs)) (a + 1) = y := by
  simp [busByte_placeAt _ _ ha]

/-- A lane instruction is what its lane reads from the instruction's own word. -/
theorem laneOfBus_encode {i : Instr} {l : Lane} (h : i.row = .lane l) : laneOfBus (encode i).bus l = i := by
  have one (a : Nat) (ha : a < 18) (x : Byte) := busByte_placeAt_fst x [] ha
  have fst (a : Nat) (ha : a < 18) (x y : Byte) := busByte_placeAt_fst x [y] ha
  have snd (a : Nat) (ha : a + 1 < 18) (x y : Byte) := busByte_placeAt_snd x y [] ha
  cases i with
  | decode => cases h
  | info v => cases h; exact congrArg Instr.info (one 0 (by decide) v)
  | accel v => cases h; exact congrArg Instr.accel (one 7 (by decide) v)
  | temp x y => cases h; exact congrArg₂ Instr.temp (fst 1 (by decide) x y) (snd 1 (by decide) x y)
  | hum x y => cases h; exact congrArg₂ Instr.hum (fst 3 (by decide) x y) (snd 3 (by decide) x y)
  | airp x y => cases h; exact congrArg₂ Instr.airp (fst 5 (by decide) x y) (snd 5 (by decide) x y)
  | batt x y => cases h; exact congrArg₂ Instr.batt (fst 8 (by decide) x y) (snd 8 (by decide) x y)
  | cput x y => cases h; exact congrArg₂ Instr.cput (fst 10 (by decide) x y) (snd 10 (by decide) x y)
  | swh x y => cases h; exact congrArg₂ Instr.swh (fst 12 (by decide) x y) (snd 12 (by decide) x y)
  | awh x y => cases h; exact congrArg₂ Instr.awh (fst 14 (by decide) x y) (snd 14 (by decide) x y)
  | aper x y => cases h; exact congrArg₂ Instr.aper (fst 16 (by decide) x y) (snd 16 (by decide) x y)

theorem decodeRow_lane_of_lt (l : Lane) {op : Operand} (h : op.len < 18) :
    decodeRow (.lane l) op = .error .shortFrame := if_pos h

theorem decodeRow_lane_of_ge (l : Lane) {op : Operand} (h : 18 ≤ op.len) :
    decodeRow (.lane l) op = .ok (laneOfBus op.bus l) := if_neg (Nat.not_lt.mpr h)

/-- Every row but DECODE's is the row of a lane. -/
theorem Row.eq_lane_of_ne_decode {r : Row} (h : r ≠ .decode) : ∃ l, r = .lane l := by
  cases r with
  | lane l => exact ⟨l, rfl⟩
  | decode => exact absurd rfl h

end Sys2Proof
end

section
/-! SUPPORT. The exact values of the scaled fields (30_encoding.md R54, R55, R93), and the bytes that reach them. -/

namespace Sys2Proof.Machine

/-- The value of a FIX100 pair: whole part and hundredths, the carry of the fraction included. -/
theorem fix100_value (w f : Byte) : (fix100 w f).value 100 = ((100 * w.toNat + f.toNat : Nat) : ℚ) / 100 := by
  have h := quot_add_rem_div (100 * w.toNat + f.toNat) (d := 100) (by decide)
  rw [Scaled.value, fix100_int_nat, fix100_fr_nat, ← Nat.mul_add_div (by decide : 100 > 0) w.toNat f.toNat,
    ← Nat.mul_add_mod 100 w.toNat f.toNat]
  exact h

theorem scale10_value (n : BitVec 16) : (scale 10 13 4 n).value 10 = (n.toNat : ℚ) / 10 := by
  rw [Scaled.value, scale10_int_nat, scale10_fr_nat]
  exact quot_add_rem_div n.toNat (by decide)

theorem scale100_value (n : BitVec 16) : (scale 100 10 7 n).value 100 = (n.toNat : ℚ) / 100 := by
  rw [Scaled.value, scale100_int_nat, scale100_fr_nat]
  exact quot_add_rem_div n.toNat (by decide)

/-- Every number of hundredths up to `257.55` is a whole byte and a fractional byte. -/
theorem exists_hundredths {c : Nat} (h : c ≤ 25755) : ∃ w f : Byte, 100 * w.toNat + f.toNat = c := by
  refine ⟨BitVec.ofNat 8 (min (c / 100) 255), BitVec.ofNat 8 (c - 100 * min (c / 100) 255), ?_⟩
  simp only [BitVec.toNat_ofNat]
  omega

/-- Every 16-bit number is composed of two bytes. -/
theorem exists_compose16 {n : Nat} (h : n ≤ 65535) : ∃ lo hi : Byte, (compose16 lo hi).toNat = n := by
  refine ⟨BitVec.ofNat 8 (n % 256), BitVec.ofNat 8 (n / 256), ?_⟩
  simp only [compose16_nat, BitVec.toNat_ofNat]
  omega

end Sys2Proof.Machine
end

section
/-! SUPPORT. What the lanes write: the record of a frame, and the result fields after any list of lanes. -/

namespace Sys2Proof.Machine

/-- The record the ten lane rules give for the bytes on the bus (44_decode.md R90). -/
def recordOf (bus : Bus) : Record :=
  { info := raw8 (busByte bus 0)
    temperature := fix100 (busByte bus 1) (busByte bus 2)
    humidity := fix100 (busByte bus 3) (busByte bus 4)
    airPressure := scale airpDivisor 13 4 (compose16 (busByte bus 5) (busByte bus 6))
    acceleration := raw8 (busByte bus 7)
    battery := scale battDivisor 10 7 (compose16 (busByte bus 8) (busByte bus 9))
    cpuTemperature := fix100 (busByte bus 10) (busByte bus 11)
    significantWaveHeight := compose16 (busByte bus 12) (busByte bus 13)
    averageWaveHeight := compose16 (busByte bus 14) (busByte bus 15)
    averagePeriod := compose16 (busByte bus 16) (busByte bus 17) }

/-- The result fields after the lanes `ls` have run on a frame: the field of a lane in the list has that lane's value,
every other field is as before. Only membership counts, not the place in the list. -/
def Fields.afterLanes (bus : Bus) (ls : List Lane) (f : Fields) : Fields :=
  { info := if .info ∈ ls then some (recordOf bus).info else f.info
    temperature := if .temp ∈ ls then some (recordOf bus).temperature else f.temperature
    humidity := if .hum ∈ ls then some (recordOf bus).humidity else f.humidity
    airPressure := if .airp ∈ ls then some (recordOf bus).airPressure else f.airPressure
    acceleration := if .accel ∈ ls then some (recordOf bus).acceleration else f.acceleration
    battery := if .batt ∈ ls then some (recordOf bus).battery else f.battery
    cpuTemperature := if .cput ∈ ls then some (recordOf bus).cpuTemperature else f.cpuTemperature
    significantWaveHeight := if .swh ∈ ls then some (recordOf bus).significantWaveHeight else f.significantWaveHeight
    averageWaveHeight := if .awh ∈ ls then some (recordOf bus).averageWaveHeight else f.averageWaveHeight
    averagePeriod := if .aper ∈ ls then some (recordOf bus).averagePeriod else f.averagePeriod }

/-- Running one lane, then others, writes what running all of them writes. -/
theorem Fields.afterLanes_cons (bus : Bus) (l : Lane) (ls : List Lane) (f : Fields) :
    f.afterLanes bus (l :: ls) = (f.afterLanes bus [l]).afterLanes bus ls := by
  have field {α : Type} (x : Lane) (v : α) (old : Option α) :
      (if x ∈ l :: ls then some v else old) = if x ∈ ls then some v else if x ∈ [l] then some v else old := by
    by_cases h : x ∈ ls <;> simp [h]
  simp only [Fields.afterLanes, field]

/-- Lists with the same lanes leave the same result fields. -/
theorem Fields.afterLanes_congr {ls ls' : List Lane} (h : ∀ l, l ∈ ls ↔ l ∈ ls') (bus : Bus) (f : Fields) :
    f.afterLanes bus ls = f.afterLanes bus ls' := by
  simp only [Fields.afterLanes, h]

/-- After all ten lanes every field is written, and together they are the record of the frame (44_decode.md R92). -/
theorem complete_afterLanes_all (bus : Bus) (f : Fields) :
    (f.afterLanes bus Lane.all).complete = some (recordOf bus) := rfl

/-- A lane's instruction writes the lane's own result field and touches nothing else. -/
theorem exec_laneOfBus (bus : Bus) (l : Lane) (s : State) :
    exec (laneOfBus bus l) s = .next { s with fields := s.fields.afterLanes bus [l] } := by
  cases l <;> rfl

/-- The same of any instruction of a lane's row, whose bytes are those of its own word. -/
theorem exec_of_row_lane {i : Instr} {l : Lane} (h : i.row = .lane l) (s : State) :
    exec i s = .next { s with fields := s.fields.afterLanes (encode i).bus [l] } := by
  rw [← exec_laneOfBus, laneOfBus_encode h]

/-- On a frame with all 18 bytes a lane inside DECODE is the instruction its row reads (30_encoding.md R51). -/
theorem runLane_frameMemory {op : Operand} (h : 18 ≤ op.len) (l : Lane) (s : State) :
    runLane (frameMemory op) s l = exec (laneOfBus op.bus l) s := by
  have one (a : Nat) (ha : a < 18) := withByte_frameMemory op ha h
  have two (a : Nat) (ha : a + 1 < 18) := withBytes_frameMemory op ha h
  cases l with
  | info => exact one 0 (by decide) _
  | accel => exact one 7 (by decide) _
  | temp => exact two 1 (by decide) _
  | hum => exact two 3 (by decide) _
  | airp => exact two 5 (by decide) _
  | batt => exact two 8 (by decide) _
  | cput => exact two 10 (by decide) _
  | swh => exact two 12 (by decide) _
  | awh => exact two 14 (by decide) _
  | aper => exact two 16 (by decide) _

/-- Any list of lanes completes on a frame with all 18 bytes, and what it writes depends on its members alone. -/
theorem runLanes_frameMemory {op : Operand} (h : 18 ≤ op.len) (ls : List Lane) (s : State) :
    runLanes (frameMemory op) s ls = .next { s with fields := s.fields.afterLanes op.bus ls } := by
  induction ls generalizing s with
  | nil => rfl
  | cons l ls ih =>
    have hl : runLane (frameMemory op) s l = .next { s with fields := s.fields.afterLanes op.bus [l] } := by
      rw [runLane_frameMemory h, exec_laneOfBus]
    rw [runLanes_cons hl, ih, Fields.afterLanes_cons op.bus l ls]

end Sys2Proof.Machine
end

section
/-! SUPPORT. DECODE as one equation: the outcome of an operand, and its delivery. -/

namespace Sys2Proof.Machine

/-- The outcome of a transaction: MalformedFrame for a short frame, else the record of the frame (44_decode.md R90). -/
def outcomeOf (len : Nat) (bus : Bus) : TxOutcome :=
  if len < 18 then .error .malformedFrame else .ok (recordOf bus)

theorem outcomeOf_of_lt {len : Nat} (h : len < 18) (bus : Bus) : outcomeOf len bus = .error .malformedFrame := if_pos h

theorem outcomeOf_of_ge {len : Nat} (h : 18 ≤ len) (bus : Bus) : outcomeOf len bus = .ok (recordOf bus) :=
  if_neg (Nat.not_lt.mpr h)

theorem lengthGuard_eq_true_iff {len : Nat} : lengthGuard len = true ↔ len < 18 := decide_eq_true_iff

/-- DECODE completes from every state and delivers the outcome of its operand (R91). -/
theorem exec_decode (len : Nat) (bus : Bus) (s : State) :
    exec (.decode len bus) s = .next (s.deliver (outcomeOf len bus)) := by
  change execDecode len bus s = _
  rw [execDecode]
  by_cases h : len < 18
  · rw [if_pos (lengthGuard_eq_true_iff.mpr h), outcomeOf_of_lt h, State.takeMalformedFrame]
  · have hl : 18 ≤ len := Nat.le_of_not_lt h
    rw [if_neg (mt lengthGuard_eq_true_iff.mp h), outcomeOf_of_ge hl, runLanes_frameMemory (op := ⟨len, bus⟩) hl]
    exact (deliverRecord_of_complete (complete_afterLanes_all bus _)).trans
      (congrArg Host.Outcome.next (deliver_congr _ rfl rfl rfl))

theorem outcomeOf_malformed (len : Nat) (bus : Bus) : (outcomeOf len bus).malformed = decide (len < 18) := by
  by_cases h : len < 18
  · simp [outcomeOf_of_lt h, TxOutcome.malformed, h]
  · simp [outcomeOf_of_ge (Nat.le_of_not_lt h), TxOutcome.malformed, h]

/-- A cycle of the pipeline, in the terms of `Delivers` (70_reset_and_hazards.md R126). -/
theorem delivers_advance (s : State) (x : Option TxOutcome) : Delivers s x (s.advance x) where
  out := State.advance_out s x
  inflight := State.advance_inflight s x
  inputs := State.advance_inputs s x
  params := State.advance_params s x

theorem delivers_deliver (s : State) (o : TxOutcome) : Delivers s (some o) (s.deliver o) where
  out := State.advance_out s.clearFields (some o)
  inflight := State.advance_inflight s.clearFields (some o)
  inputs := State.deliver_inputs s o
  params := State.deliver_params s o

/-- Where nothing is in flight (LATENCY = 0) the outcome is on the ports at once. -/
theorem Delivers.out_of_empty {s t : State} {x : Option TxOutcome} (h : Delivers s x t) (hq : s.inflight = []) :
    t.out = x := by
  rw [h.out, hq]; rfl

end Sys2Proof.Machine
end

section
/-! SUPPORT. The numbers on a record's ports, from the bytes of the frame, and their ranges (10_state.md R13). -/

namespace Sys2Proof.Machine

/-- The numbers on a field's ports by its lane's rule, where the byte at offset `k` is the number `b k`. -/
def portsOfBytes (b : Nat → Nat) : Lane → Nat × Nat
  | .info => (b 0, 0)
  | .temp => (b 1 + b 2 / 100, b 2 % 100)
  | .hum => (b 3 + b 4 / 100, b 4 % 100)
  | .airp => ((b 5 + 256 * b 6) / 10, (b 5 + 256 * b 6) % 10)
  | .accel => (b 7, 0)
  | .batt => ((b 8 + 256 * b 9) / 100, (b 8 + 256 * b 9) % 100)
  | .cput => (b 10 + b 11 / 100, b 11 % 100)
  | .swh => (b 12 + 256 * b 13, 0)
  | .awh => (b 14 + 256 * b 15, 0)
  | .aper => (b 16 + 256 * b 17, 0)

theorem recordOf_ports (bus : Bus) (l : Lane) :
    (recordOf bus).ports l = portsOfBytes (fun k => (busByte bus k).toNat) l := by
  cases l <;>
    simp only [recordOf, Record.ports, portsOfBytes, raw8_eq, airpDivisor, battDivisor, fix100_int_nat, fix100_fr_nat,
      scale10_int_nat, scale10_fr_nat, scale100_int_nat, scale100_fr_nat, compose16_nat]

/-- Bytes give numbers in the port ranges. -/
theorem portsOfBytes_le {b : Nat → Nat} (hb : ∀ k, b k ≤ 255) (l : Lane) :
    (portsOfBytes b l).1 ≤ (portRange l).1 ∧ (portsOfBytes b l).2 ≤ (portRange l).2 := by
  have raw (x : Nat) : b x ≤ 255 ∧ 0 ≤ 0 := ⟨hb x, le_rfl⟩
  have fix (x y : Nat) : b x + b y / 100 ≤ 257 ∧ b y % 100 ≤ 99 := by have := hb x; have := hb y; omega
  have le16 (x y : Nat) : b x + 256 * b y ≤ 65535 := by have := hb x; have := hb y; omega
  cases l with
  | info => exact raw 0
  | accel => exact raw 7
  | temp => exact fix 1 2
  | hum => exact fix 3 4
  | cput => exact fix 10 11
  | airp => have := le16 5 6; simp only [portsOfBytes, portRange]; omega
  | batt => have := le16 8 9; simp only [portsOfBytes, portRange]; omega
  | swh => exact ⟨le16 12 13, le_rfl⟩
  | awh => exact ⟨le16 14 15, le_rfl⟩
  | aper => exact ⟨le16 16 17, le_rfl⟩

theorem recordOf_inRange (bus : Bus) : (recordOf bus).inRange := by
  intro l _
  rw [recordOf_ports]
  exact portsOfBytes_le (fun k => Nat.le_of_lt_succ (busByte bus k).isLt) l

theorem outcomeOf_inRange (len : Nat) (bus : Bus) : (outcomeOf len bus).inRange := by
  by_cases h : len < 18
  · rw [outcomeOf_of_lt h]; trivial
  · rw [outcomeOf_of_ge (Nat.le_of_not_lt h)]; exact recordOf_inRange bus

end Sys2Proof.Machine
end

section
/-! SUPPORT. The three kinds of cycle as equations of the step, and what the output ports show. -/

namespace Sys2Proof.Machine

/-- A cycle with `rst` (10_state.md R22). -/
theorem runCycle_of_reset {i : InPorts} {s : State} (h : resetAsserted s.params i = true) :
    runCycle i s = .next s.resetCycle := if_pos h

/-- A cycle that presents nothing (10_state.md R19). -/
theorem runCycle_of_idle {i : InPorts} {s : State} (hr : resetAsserted s.params i = false) (hv : i.inValid = false) :
    runCycle i s = .next (s.advance none) := by
  simp only [runCycle, hr, hv, Bool.false_eq_true, if_false]

/-- A cycle whose operand decodes runs the instruction. -/
theorem runCycle_of_ok {i : InPorts} {s : State} {instr : Instr} (hr : resetAsserted s.params i = false)
    (hv : i.inValid = true) (hd : decodeFrame s.params i.operand = .ok instr) : runCycle i s = exec instr s := by
  simp only [runCycle, hr, hv, hd, Bool.false_eq_true, if_false, if_true]

/-- A cycle whose operand does not decode is refused. -/
theorem runCycle_of_error {i : InPorts} {s : State} {e : DecodeError} (hr : resetAsserted s.params i = false)
    (hv : i.inValid = true) (hd : decodeFrame s.params i.operand = .error e) :
    runCycle i s = .refused (.undecodable e) := by
  simp only [runCycle, hr, hv, hd, Bool.false_eq_true, if_false, if_true]

/-- A step runs the coming cycle at the state with that cycle used up. -/
theorem step_of_inputs_cons {s : State} {i : InPorts} {rest : List InPorts} (h : s.inputs = i :: rest) :
    step s = runCycle i { s with inputs := rest } := by
  rw [step, State.currentPorts, State.consumePorts, h, List.headD_cons, List.tail_cons]

/-- All fifteen field ports carry a value or none does, as the record does (10_state.md R20). -/
theorem State.fieldPortsPresent_eq (s : State) : s.fieldPortsPresent = List.replicate 15 s.outRecord.isSome := by
  simp only [State.fieldPortsPresent, State.outInfo, State.outTempInt, State.outTempFr, State.outHumInt,
    State.outHumFr, State.outAirpInt, State.outAirpFr, State.outAccel, State.outBattInt, State.outBattFr,
    State.outCputInt, State.outCputFr, State.outSwh, State.outAwh, State.outAper, Option.isSome_map]
  rfl

/-- There is a record exactly with `out_malformed = 0`. -/
theorem State.outRecord_isSome (s : State) : s.outRecord.isSome = decide (s.outMalformed = some false) := by
  rcases h : s.out with _ | r | e
  · simp [State.outRecord_of_none h, State.outMalformed, h]
  · simp [State.outRecord_of_ok h, State.outMalformed, h, TxOutcome.malformed]
  · simp [State.outRecord_of_error h, State.outMalformed, h, TxOutcome.malformed]

end Sys2Proof.Machine
end

section
/-! SUPPORT. The invariant and the operations a cycle is made of. -/

namespace Sys2Proof.Machine

variable {s : State}

theorem Inv.consumePorts (h : Inv s) : Inv s.consumePorts :=
  { h with inputs := fun i hi => h.inputs i (List.mem_of_mem_tail hi) }

/-- Giving up the result fields keeps the invariant, which has them absent already. -/
theorem Inv.clearFields (h : Inv s) : Inv s.clearFields := { h with fields := rfl }

/-- A cycle of the pipeline keeps the invariant if what goes in is in range. -/
theorem Inv.advance (h : Inv s) {x : Option TxOutcome} (hx : ∀ o, x = some o → o.inRange) : Inv (s.advance x) where
  params := by rw [State.advance_params]; exact h.params
  inflight := by rw [State.advance_inflight_length, State.advance_params]; exact h.inflight
  fields := by rw [State.advance_fields]; exact h.fields
  inputs := by rw [State.inputsOnPorts, State.advance_inputs, State.advance_params]; exact h.inputs
  flying o ho := (State.mem_of_advance s x (.inl ho)).elim (h.flying o) (hx o)
  delivered o ho := (State.mem_of_advance s x (.inr ho)).elim (h.flying o) (hx o)

theorem Inv.deliver (h : Inv s) {o : TxOutcome} (ho : o.inRange) : Inv (s.deliver o) :=
  h.clearFields.advance fun _ e => Option.some.inj e ▸ ho

/-- A reset cycle leaves LATENCY empty places and no outcome. -/
theorem Inv.resetCycle (h : Inv s) : Inv s.resetCycle where
  params := h.params
  inflight := List.length_replicate
  fields := rfl
  inputs := h.inputs
  flying _ ho := by cases List.eq_of_mem_replicate ho
  delivered _ ho := by cases ho

end Sys2Proof.Machine
end

section
/-! PROOFS. The statements of the family 10_state. -/

namespace Sys2Proof.Machine

/-- Settles O35: a cycle that answers is a reset, a DECODE or an idle cycle, and each is made of operations that keep the
invariant. -/
theorem stepKeepsInv : Obligations.StepKeepsInv := by
  intro s t hs h
  obtain ⟨-, rfl⟩ | ⟨-, -, -, he⟩ | ⟨-, -, rfl⟩ := runCycle_cases h
  · exact hs.consumePorts.resetCycle
  · rw [exec_decode] at he
    cases he
    exact hs.consumePorts.deliver (outcomeOf_inRange _ _)
  · exact hs.consumePorts.advance (by simp)

/-- Settles O3: both frames give the lane's instruction exactly when they agree at the lane's offsets, and the
instruction's own word is one such frame. -/
theorem laneRowReadsExactlyItsOwnBytes : Obligations.LaneRowReadsExactlyItsOwnBytes := by
  intro l op
  refine ⟨decodeRow_lane_of_lt l, fun h => ⟨laneOfBus op.bus l, decodeRow_lane_of_ge l h, row_laneOfBus _ _, ?_, ?_⟩⟩
  · exact (laneOfBus_eq_iff l _ _).mp (laneOfBus_encode (row_laneOfBus op.bus l))
  · intro op' h' hb
    rw [decodeRow_lane_of_ge l h', (laneOfBus_eq_iff l _ _).mpr hb]

/-- Settles O10: the value is the number over its divisor, and every number has its bytes. -/
theorem everyValueInRangeIsReached : Obligations.EveryValueInRangeIsReached := by
  refine ⟨fun c hc => ?_, fun n hn => ?_, fun n hn => ?_⟩
  · obtain ⟨w, f, rfl⟩ := exists_hundredths hc
    exact ⟨w, f, fix100_value w f⟩
  · obtain ⟨lo, hi, rfl⟩ := exists_compose16 hn
    exact ⟨lo, hi, scale10_value _⟩
  · obtain ⟨lo, hi, rfl⟩ := exists_compose16 hn
    exact ⟨lo, hi, scale100_value _⟩

/-- Settles O15: the state after a lane differs in the field of that lane alone. -/
theorem laneWritesOnlyItsField : Obligations.LaneWritesOnlyItsField := by
  intro i s t hi h
  obtain ⟨l, hl⟩ := Row.eq_lane_of_ne_decode hi
  rw [exec_of_row_lane hl] at h
  cases h
  have other {x : Lane} (hx : i.row ≠ .lane x) : x ∉ [l] := fun hm =>
    hx (hl.trans (congrArg Row.lane (List.mem_singleton.mp hm).symm))
  exact ⟨rfl, rfl, rfl, rfl, fun h => if_neg (other h), fun h => if_neg (other h), fun h => if_neg (other h),
    fun h => if_neg (other h), fun h => if_neg (other h), fun h => if_neg (other h), fun h => if_neg (other h),
    fun h => if_neg (other h), fun h => if_neg (other h), fun h => if_neg (other h)⟩

/-- Settles O33, by the three cases of the output ports. -/
theorem fieldPortsOnlyWithASuccess : Obligations.FieldPortsOnlyWithASuccess := by
  refine ⟨fun s => ⟨Option.isSome_map .., ?_, s.outRecord_isSome⟩, fun s r h => ?_⟩
  · rw [s.fieldPortsPresent_eq, s.outRecord_isSome]
  · simp only [State.outValid, State.outMalformed, h, State.outInfo, State.outTempInt, State.outTempFr,
      State.outHumInt, State.outHumFr, State.outAirpInt, State.outAirpFr, State.outAccel, State.outBattInt,
      State.outBattFr, State.outCputInt, State.outCputFr, State.outSwh, State.outAwh, State.outAper,
      State.outRecord_of_ok h, Option.map_some, Option.isSome_some, TxOutcome.malformed, and_self]

/-- Settles O17: DECODE delivers the record of the frame, whose numbers are the lane rules', and each port shows its own
field of it (O33). -/
theorem decodeFieldPorts : Obligations.DecodeFieldPorts := by
  intro len bus s hlen
  have hd : Delivers s (some (.ok (recordOf bus))) (s.deliver (.ok (recordOf bus))) := delivers_deliver s _
  have hp := recordOf_ports bus
  refine ⟨recordOf bus, s.deliver (.ok (recordOf bus)), by rw [exec_decode, outcomeOf_of_ge hlen], hd, hp .info,
    hp .temp, hp .hum, hp .airp, hp .accel, hp .batt, hp .cput, hp .swh, hp .awh, hp .aper, fun hq => ?_⟩
  obtain ⟨hv, hm, -, info, tempInt, tempFr, humInt, humFr, airpInt, airpFr, accel, battInt, battFr, cputInt, cputFr,
    swh, awh, aper⟩ := fieldPortsOnlyWithASuccess.2 _ _ (hd.out_of_empty hq)
  rw [info, tempInt, tempFr, humInt, humFr, airpInt, airpFr, accel, battInt, battFr, cputInt, cputFr, swh, awh, aper]
  have int (l : Lane) := congrArg (fun p => some p.1) (hp l)
  have fr (l : Lane) := congrArg (fun p => some p.2) (hp l)
  exact ⟨hv, hm, int .info, int .temp, fr .temp, int .hum, fr .hum, int .airp, fr .airp, int .accel, int .batt,
    fr .batt, int .cput, fr .cput, int .swh, int .awh, int .aper⟩

/-- Settles O20: DECODE's outcome is decided by the guard, and a lane leaves the output ports as they were. -/
theorem malformedFlagFollowsTheGuard : Obligations.MalformedFlagFollowsTheGuard := by
  refine ⟨fun len bus s => ⟨outcomeOf len bus, _, exec_decode len bus s, delivers_deliver s _, ?_, ?_⟩,
    fun i s t hi h => ?_⟩
  · rw [outcomeOf_malformed, decide_eq_true_iff]
  · rw [outcomeOf_malformed, decide_eq_false_iff_not, Nat.not_lt]
  · obtain ⟨l, hl⟩ := Row.eq_lane_of_ne_decode hi
    rw [exec_of_row_lane hl] at h
    cases h
    rfl

/-- Settles O23: what a list of lanes writes depends on its members alone, and a permutation has the same members. -/
theorem laneOrderIsNotObservable : Obligations.LaneOrderIsNotObservable := by
  intro ls op s hperm hlen
  refine ⟨_, runLanes_frameMemory hlen ls s, ?_⟩
  rw [runLanes_frameMemory hlen, Fields.afterLanes_congr fun _ => hperm.mem_iff]

/-- Settles O4: the address map is finite and closed, so it is evaluated. -/
theorem eachByteBelongsToOneLane : Obligations.EachByteBelongsToOneLane := by
  unfold Obligations.EachByteBelongsToOneLane
  decide

/-- Settles O29: a cycle that presents an operand is decided by what the operand decodes to. -/
theorem stepRunsTheDecodedInstruction : Obligations.StepRunsTheDecodedInstruction := by
  intro s i rest hi hr hv
  rw [step_of_inputs_cons hi]
  exact ⟨fun _ hd => runCycle_of_ok hr hv hd, fun _ hd => runCycle_of_error hr hv hd⟩

/-- Settles O30: with or without a coming cycle, the step is an idle one. -/
theorem idleCycleIgnoresTheOtherPorts : Obligations.IdleCycleIgnoresTheOtherPorts := by
  intro s h
  have ⟨hr, hv⟩ : resetAsserted s.params s.currentPorts = false ∧ s.currentPorts.inValid = false := by
    rw [State.currentPorts]
    cases hi : s.inputs with
    | nil => exact ⟨Bool.and_false _, rfl⟩
    | cons i rest => exact h i (by rw [hi, List.head?_cons])
  exact ⟨s.consumePorts.advance none, runCycle_of_idle hr hv, delivers_advance _ _,
    State.advance_fields _ _⟩

/-- Settles O31: the step is a reset cycle at the state with the cycle used up. -/
theorem resetCycleDropsEverything : Obligations.ResetCycleDropsEverything := by
  intro s i rest hi hr
  exact ⟨_, (step_of_inputs_cons hi).trans (runCycle_of_reset hr), rfl, rfl⟩

/-- Settles O32: `State.reset` holds no outcome, and the ports follow. -/
theorem resetDeliversNothing : Obligations.ResetDeliversNothing := by
  have hrec : State.reset.outRecord = none := State.outRecord_of_none rfl
  refine ⟨rfl, rfl, hrec, ?_, rfl, fun _ => List.not_mem_nil⟩
  rw [State.fieldPortsPresent_eq, hrec, Option.isSome_none]

/-- Settles O34: after reset every list the invariant speaks of is empty. -/
theorem resetMeetsInv : Obligations.ResetMeetsInv where
  params := by decide
  inflight := rfl
  fields := rfl
  inputs _ hi := absurd hi List.not_mem_nil
  flying _ ho := absurd ho List.not_mem_nil
  delivered _ ho := by cases ho

end Sys2Proof.Machine
end

section
/-! SUPPORT. `MemRead` of two bytes, the saturated length against the guard, and what of a presented frame reaches the
outcome. -/

namespace Sys2Proof.Machine

/-- A pair whose upper byte does not exist is not read. -/
theorem read2_eq_none {m : Memory} {a : Nat} (h : m.read1 (a + 1) = none) : m.read2 a = none := by
  rw [Memory.read2, h]
  cases m.read1 a <;> rfl

/-- `MemRead(a, 2)`: both bytes, composed little-endian, where both exist, and nothing elsewhere (20_memory.md R41). -/
theorem read2_frameMemory (op : Operand) (a : Nat) :
    (frameMemory op).read2 a =
      if a + 2 ≤ op.len ∧ a + 2 ≤ 18 then some (compose16 (busByte op.bus a) (busByte op.bus (a + 1))) else none := by
  have hhi : (frameMemory op).read1 (a + 1) =
      if a + 2 ≤ op.len ∧ a + 2 ≤ 18 then some (busByte op.bus (a + 1)) else none := read1_frameMemory op (a + 1)
  by_cases h : a + 2 ≤ op.len ∧ a + 2 ≤ 18
  · rw [if_pos h] at hhi ⊢
    rw [Memory.read2, hhi, read1_frameMemory, if_pos (by omega)]
  · rw [if_neg h] at hhi ⊢
    exact read2_eq_none hhi

/-- The largest number of a port of at least 5 wires is beyond the guard, so saturating to it keeps the comparison
(20_memory.md R31). -/
theorem saturateLen_lt_iff {p : Params} (hp : p.wf) (len : Nat) : saturateLen p len < 18 ↔ len < 18 := by
  have hmax : 2 ^ 5 ≤ 2 ^ p.lenW := Nat.pow_le_pow_right (by decide) hp
  rw [saturateLen]
  omega

/-- Saturating the length to the port changes no outcome (R31). -/
theorem outcomeOf_saturateLen {p : Params} (hp : p.wf) (len : Nat) (bus : Bus) :
    outcomeOf (saturateLen p len) bus = outcomeOf len bus := by
  simp only [outcomeOf, saturateLen_lt_iff hp]

/-- The first 18 bytes of a frame fill the bus: nothing after them and no padding is on it (R40). -/
theorem frameOnBus_append {frame : List Byte} (h : 18 ≤ frame.length) (extra : List Byte) (pad pad' : Bus) :
    frameOnBus pad' (frame ++ extra) = frameOnBus pad frame := by
  refine congrArg packBus (List.map_congr_left fun k hk => ?_)
  have hk : k < frame.length := Nat.lt_of_lt_of_le (List.mem_range.mp hk) h
  rw [List.getD_append _ _ _ _ hk, List.getD_eq_getElem _ _ hk, List.getD_eq_getElem _ _ hk]

/-- The outcome of a long enough frame is that of its first 18 bytes, whatever follows them or pads the bus. -/
theorem outcomeOf_frame_append {frame : List Byte} (h : 18 ≤ frame.length) (extra : List Byte) (pad pad' : Bus) :
    outcomeOf (frame ++ extra).length (frameOnBus pad' (frame ++ extra)) =
      outcomeOf frame.length (frameOnBus pad frame) := by
  have hlong : 18 ≤ (frame ++ extra).length := by rw [List.length_append]; omega
  rw [outcomeOf_of_ge hlong, outcomeOf_of_ge h, frameOnBus_append h extra pad pad']

end Sys2Proof.Machine
end

section
/-! PROOFS. The statements of the family 20_memory. -/

namespace Sys2Proof.Machine

/-- Settles O24: the row reads the lane's instruction, the lane inside DECODE is that instruction, and it writes its
field. -/
theorem lanesInsideDecodeAreTheirRows : Obligations.LanesInsideDecodeAreTheirRows := by
  intro l op s h
  exact ⟨laneOfBus op.bus l, _, decodeRow_lane_of_ge l h, runLane_frameMemory h l s, exec_laneOfBus op.bus l s⟩

/-- Settles O25, by the two reads of the frame. -/
theorem memReadIsDefinedBelowLen : Obligations.MemReadIsDefinedBelowLen := by
  intro op a
  refine ⟨read1_frameMemory op a, fun hlen hbus => ⟨_, ?_, compose16_nat _ _⟩, fun h => ?_⟩
  · rw [read2_frameMemory, if_pos ⟨hlen, hbus⟩]
  · rw [read2_frameMemory, if_neg (by omega)]

/-- Settles O26: DECODE changes the state by a delivery, a lane by its result field. -/
theorem nothingWritesTheFrame : Obligations.NothingWritesTheFrame := by
  intro i s t h
  cases i with
  | decode len bus =>
    rw [exec_decode] at h
    cases h
    exact ⟨State.deliver_inputs s _, State.deliver_params s _⟩
  | _ =>
    rw [exec_of_row_lane rfl] at h
    cases h
    exact ⟨rfl, rfl⟩

/-- Settles O27: the guard is the comparison that saturation keeps. -/
theorem saturationKeepsTheGuard : Obligations.SaturationKeepsTheGuard := by
  intro p len hp
  exact ⟨saturateLen_onLenPort p len, decide_eq_decide.mpr (saturateLen_lt_iff hp len)⟩

/-- Settles O28: DECODE delivers the outcome of its operand, which saturation does not change; a long enough frame's is
that of its first 18 bytes, and a short frame's does not depend on the bus. -/
theorem unreadBytesInfluenceNothing : Obligations.UnreadBytesInfluenceNothing := by
  intro p pad pad' frame extra s hp
  simp only [exec_decode, outcomeOf_saturateLen hp]
  refine ⟨fun hlong => ?_, fun hshort => ?_⟩
  · rw [outcomeOf_frame_append hlong extra pad pad']
  · rw [outcomeOf_of_lt hshort, outcomeOf_of_lt hshort]

end Sys2Proof.Machine
end

section
/-! SUPPORT. The length of an encoded lane, operand assembly on the bus and back to its bytes, and the text of a field. -/

namespace Sys2Proof

/-- A lane's word is a frame of the least accepted length. -/
theorem encode_len_of_row_lane {i : Instr} {l : Lane} (h : i.row = .lane l) : (encode i).len = 18 := by
  cases i with
  | decode => cases h
  | _ => rfl

namespace Machine

/-! ### Bytes composed and taken apart -/

/-- `compose16` puts the high byte above the low one (30_encoding.md R53). -/
theorem compose16_eq_append (lo hi : Byte) : compose16 lo hi = hi ++ lo := by
  apply BitVec.eq_of_toNat_eq
  rw [compose16_nat, BitVec.toNat_append, ← Nat.shiftLeft_add_eq_or_of_lt lo.isLt, Nat.shiftLeft_eq]
  omega

theorem compose16_mod (lo hi : Byte) : (compose16 lo hi).toNat % 256 = lo.toNat := by
  rw [compose16_nat, Nat.add_mul_mod_self_left, Nat.mod_eq_of_lt lo.isLt]

theorem compose16_div (lo hi : Byte) : (compose16 lo hi).toNat / 256 = hi.toNat := by
  rw [compose16_nat, Nat.add_mul_div_left _ _ (by decide), Nat.div_eq_of_lt lo.isLt, Nat.zero_add]

/-- A composed number has one pair of bytes: remainder and quotient by 256. -/
theorem compose16_inj {lo hi lo' hi' : Byte} (h : compose16 lo' hi' = compose16 lo hi) : lo' = lo ∧ hi' = hi := by
  constructor <;> apply BitVec.eq_of_toNat_eq
  · rw [← compose16_mod lo' hi', h, compose16_mod]
  · rw [← compose16_div lo' hi', h, compose16_div]

/-- Two neighbouring bytes of the bus, the upper one above the lower, are 16 neighbouring bits (R50). -/
theorem busByte_append_busByte (bus : Bus) (a : Nat) :
    busByte bus (a + 1) ++ busByte bus a = bus.extractLsb' (8 * a) 16 :=
  BitVec.extractLsb'_append_extractLsb'_eq_extractLsb' (Nat.mul_succ 8 a)

/-! ### The exact numbers of the scaled pairs -/

/-- The value of a FIX100 pair as the sum of its two bytes' values (R54). -/
theorem fix100_value_eq_add (w f : Byte) : (fix100 w f).value 100 = (w.toNat : ℚ) + (f.toNat : ℚ) / 100 := by
  rw [fix100_value]
  push_cast
  ring

/-! ### The text of a field, by its lane's divisor (R61) -/

theorem text_of_unscaled (r : Record) {l : Lane} (h : laneDivisor l = 1) : r.text l = Nat.repr (r.ports l).1 := by
  cases l with
  | info | accel | swh | awh | aper => rfl
  | _ => exact absurd h (by decide)

theorem text_of_hundredths (r : Record) {l : Lane} (h : laneDivisor l = 100) :
    r.text l =
      Nat.repr (r.ports l).1 ++ "." ++ (if (r.ports l).2 < 10 then "0" else "") ++ Nat.repr (r.ports l).2 := by
  cases l with
  | temp | hum | batt | cput => rfl
  | _ => exact absurd h (by decide)

end Machine
end Sys2Proof
end

section
/-! PROOFS. The statements of the family 30_encoding. -/

namespace Sys2Proof.Machine

/-- Settles O1: a lane's word is long enough for its row, which reads the lane's bytes back; DECODE's row reads the
operand whole. -/
theorem rowDecodesItsEncoding : Obligations.RowDecodesItsEncoding := by
  intro i
  cases hr : i.row with
  | lane l => rw [decodeRow_lane_of_ge l (encode_len_of_row_lane hr).ge, laneOfBus_encode hr]
  | decode =>
    cases i with
    | decode len frame => rfl
    | _ => cases hr

/-- Settles O6: composing is putting the bytes next to each other, as they stand on the bus. -/
theorem twoByteFieldIsABusSlice : Obligations.TwoByteFieldIsABusSlice := by
  intro bus a _
  rw [compose16_eq_append, busByte_append_busByte]

/-- Settles O7: the value gives the forms, and its remainder and quotient by 256 the one pair of bytes. -/
theorem composeIsLittleEndianAndBijective : Obligations.ComposeIsLittleEndianAndBijective := by
  refine ⟨fun lo hi => ⟨compose16_nat lo hi, ?_, compose16_eq_append lo hi, (compose16_mod lo hi).symm,
    (compose16_div lo hi).symm⟩, fun n => ?_, by decide⟩
  · rw [compose16_nat, Nat.shiftLeft_eq, Nat.mul_comm hi.toNat]
  · obtain ⟨lo, hi, h⟩ := exists_compose16 (Nat.le_of_lt_succ n.isLt)
    obtain rfl := BitVec.eq_of_toNat_eq h
    exact ⟨lo, hi, rfl, fun _ _ => compose16_inj⟩

/-- Settles O8: both ports are quotient and remainder of the number of hundredths, and a byte bounds them. -/
theorem fix100IsExact : Obligations.Fix100IsExact := by
  refine ⟨fun w f => ⟨fix100_value_eq_add w f, fix100_value w f, ?_⟩, ⟨by decide, ?_⟩,
    fun w => ⟨fix100_int_nat w 150, rfl⟩, by decide⟩
  · have hw := w.isLt
    have hf := f.isLt
    rw [fix100_int_nat, fix100_fr_nat]
    omega
  · have h : (fix100 1 150).value 100 = ((250 : Nat) : ℚ) / 100 := fix100_value 1 150
    rw [h]
    norm_num

/-- Settles O9: both ports are quotient and remainder by the divisor; a fractional byte put through the scaler gives the
carry and the fraction of FIX100. -/
theorem scaleIsExact : Obligations.ScaleIsExact := by
  refine ⟨fun n => ?_, by decide, by decide, fun w f => ⟨?_, ?_⟩⟩
  · have hn := n.isLt
    rw [scale10_int_nat, scale10_fr_nat, scale100_int_nat, scale100_fr_nat]
    refine ⟨scale10_value n, rfl, ?_, rfl, ?_, ?_, scale100_value n, rfl, ?_⟩ <;> omega
  · rw [fix100_int_nat, scale100_int_nat, BitVec.toNat_setWidth_of_le (by decide)]
  · apply BitVec.eq_of_toNat_eq
    rw [fix100_fr_nat, scale100_fr_nat, BitVec.toNat_setWidth_of_le (by decide)]

/-- Settles O2: the decoder's one question is whether the length fits its port. -/
theorem portsDecodeToTheTransaction : Obligations.PortsDecodeToTheTransaction := by
  intro p op
  refine ⟨fun h => ⟨.decode op.len op.bus, if_pos h, rfl, h, rfl⟩, fun h => if_neg ?_⟩
  rw [h]
  exact Bool.false_ne_true

/-- Settles O5, by running the decoder on the spec's words. -/
theorem specWordsDecode : Obligations.SpecWordsDecode := ⟨rfl, rfl, rfl⟩

/-- Settles O40: a field's text is that of its divisor, and only a fraction below 10 is padded. -/
theorem resultsAreWrittenAsInR61 : Obligations.ResultsAreWrittenAsInR61 := by
  intro r
  refine ⟨fun l hl => ?_, rfl, fun l hl => ?_⟩
  · have unscaled : ∀ l ∈ [Lane.info, .accel, .swh, .awh, .aper], laneDivisor l = 1 := by decide
    exact text_of_unscaled r (unscaled l hl)
  · have hundredths : ∀ l ∈ [Lane.temp, .hum, .batt, .cput], laneDivisor l = 100 := by decide
    have padded : "." ++ "0" = ".0" := by decide
    rw [text_of_hundredths r (hundredths l hl)]
    refine ⟨fun h => ?_, fun h => ?_⟩
    · rw [if_pos h, ← padded, ← String.append_assoc]
    · rw [if_neg (Nat.not_lt.mpr h), String.append_empty]

end Sys2Proof.Machine
end

section
/-! SUPPORT. What the RAW8 lanes write: the byte itself, since it fits its port (40_raw8.md R70, R71). -/

namespace Sys2Proof.Machine

theorem exec_info (v : Byte) (s : State) : exec (.info v) s = .next (s.setInfo v) := by
  rw [exec, execInfo, raw8_eq]

theorem exec_accel (v : Byte) (s : State) : exec (.accel v) s = .next (s.setAcceleration v) := by
  rw [exec, execAccel, raw8_eq]

end Sys2Proof.Machine
end

section
/-! PROOFS. The statements of the family 40_raw8. -/

namespace Sys2Proof.Machine

/-- Settles O11: each row reads the byte at its lane's offset, 0 and 7, and the lane writes that byte unchanged to its
own field. -/
theorem raw8LanesPassTheByte : Obligations.Raw8LanesPassTheByte :=
  ⟨fun _ h => ⟨decodeRow_lane_of_ge .info h, decodeRow_lane_of_ge .accel h⟩, fun v s => ⟨exec_info v s, exec_accel v s⟩⟩

end Sys2Proof.Machine
end

section
/-! SUPPORT. What the FIX100 lanes write: the pair of R54, each to its own field (41_fix100.md R75, R76, R77). -/

namespace Sys2Proof.Machine

theorem exec_temp (w f : Byte) (s : State) : exec (.temp w f) s = .next (s.setTemperature (fix100 w f)) := rfl

theorem exec_hum (w f : Byte) (s : State) : exec (.hum w f) s = .next (s.setHumidity (fix100 w f)) := rfl

theorem exec_cput (w f : Byte) (s : State) : exec (.cput w f) s = .next (s.setCpuTemperature (fix100 w f)) := rfl

end Sys2Proof.Machine
end

section
/-! PROOFS. The statements of the family 41_fix100. -/

namespace Sys2Proof.Machine

/-- Settles O12: each row reads the two bytes at its lane's offset, 1, 3 and 10, and the pair all three lanes write is
`fix100 w f`, whatever the state. -/
theorem fix100LanesAddHundredths : Obligations.Fix100LanesAddHundredths := by
  refine ⟨fun op h => ?_, fun w f => ⟨fix100 w f, ?_, ?_, ?_, fun s => ?_⟩⟩
  · exact ⟨decodeRow_lane_of_ge .temp h, decodeRow_lane_of_ge .hum h, decodeRow_lane_of_ge .cput h⟩
  · exact fix100_value_eq_add w f
  · exact fix100_int_nat w f
  · exact fix100_fr_nat w f
  · exact ⟨exec_temp w f s, exec_hum w f s, exec_cput w f s⟩

end Sys2Proof.Machine
end

section
/-! SUPPORT. What the LE16S lanes write: the composed number scaled by 10 and by 100, each to its own field
(42_le16_scaled.md R80, R81), and that number as a rational. -/

namespace Sys2Proof.Machine

theorem exec_airp (lo hi : Byte) (s : State) :
    exec (.airp lo hi) s = .next (s.setAirPressure (scale 10 13 4 (compose16 lo hi))) := rfl

theorem exec_batt (lo hi : Byte) (s : State) :
    exec (.batt lo hi) s = .next (s.setBattery (scale 100 10 7 (compose16 lo hi))) := rfl

/-- The composed number in the exact rationals of R13. -/
theorem compose16_rat (lo hi : Byte) : ((compose16 lo hi).toNat : ℚ) = (lo.toNat : ℚ) + 256 * (hi.toNat : ℚ) := by
  rw [compose16_nat]
  push_cast
  rfl

end Sys2Proof.Machine
end

section
/-! PROOFS. The statements of the family 42_le16_scaled. -/

namespace Sys2Proof.Machine

/-- Settles O13: each row reads the two bytes at its lane's offset, 5 and 8, which stand next to each other on the bus,
and the pair each lane writes is the composed number scaled by the lane's divisor, whatever the state. -/
theorem le16sLanesDivideByTheirConstant : Obligations.Le16sLanesDivideByTheirConstant := by
  refine ⟨fun op h => ⟨decodeRow_lane_of_ge .airp h, decodeRow_lane_of_ge .batt h, ?_, ?_⟩,
    fun lo hi => ⟨scale 10 13 4 (compose16 lo hi), scale 100 10 7 (compose16 lo hi), ?_⟩⟩
  · exact twoByteFieldIsABusSlice op.bus 5 (by decide)
  · exact twoByteFieldIsABusSlice op.bus 8 (by decide)
  · rw [← compose16_rat, ← compose16_nat]
    exact ⟨scale10_value _, scale10_int_nat _, scale10_fr_nat _, scale100_value _, scale100_int_nat _, scale100_fr_nat _,
      fun s => ⟨exec_airp lo hi s, exec_batt lo hi s⟩⟩

end Sys2Proof.Machine
end

section
/-! SUPPORT. What the LE16 lanes write: the composed number itself, each to its own field (43_le16_raw.md R85, R86,
R87). -/

namespace Sys2Proof.Machine

theorem exec_swh (lo hi : Byte) (s : State) :
    exec (.swh lo hi) s = .next (s.setSignificantWaveHeight (compose16 lo hi)) := rfl

theorem exec_awh (lo hi : Byte) (s : State) :
    exec (.awh lo hi) s = .next (s.setAverageWaveHeight (compose16 lo hi)) := rfl

theorem exec_aper (lo hi : Byte) (s : State) :
    exec (.aper lo hi) s = .next (s.setAveragePeriod (compose16 lo hi)) := rfl

end Sys2Proof.Machine
end

section
/-! PROOFS. The statements of the family 43_le16_raw. -/

namespace Sys2Proof.Machine

/-- Settles O14: each row reads the two bytes at its lane's offset, 12, 14 and 16, which stand next to each other on the
bus, and the number all three lanes write is `compose16 lo hi`, whatever the state. -/
theorem le16LanesPassTheComposedValue : Obligations.Le16LanesPassTheComposedValue := by
  refine ⟨fun op h => ⟨decodeRow_lane_of_ge .swh h, decodeRow_lane_of_ge .awh h, decodeRow_lane_of_ge .aper h,
    ?_, ?_, ?_⟩, fun lo hi => ⟨compose16 lo hi, compose16_nat lo hi, fun s => ?_⟩⟩
  · exact twoByteFieldIsABusSlice op.bus 12 (by decide)
  · exact twoByteFieldIsABusSlice op.bus 14 (by decide)
  · exact twoByteFieldIsABusSlice op.bus 16 (by decide)
  · exact ⟨exec_swh lo hi s, exec_awh lo hi s, exec_aper lo hi s⟩

end Sys2Proof.Machine
end

section
/-! SUPPORT. The outcome of an operand against the rule of R90: its exact values, its dependence on the guard and on each
lane's own bytes, and its record or none. -/

namespace Sys2Proof.Machine

/-! ### Exact values -/

/-- An integer field's value is the number on its one port (10_state.md R13). -/
theorem value_of_unscaled (r : Record) {l : Lane} (h : laneDivisor l = 1) : r.value l = ((r.ports l).1 : ℚ) := by
  have noFraction : (r.ports l).2 = 0 := by
    cases l with
    | info | accel | swh | awh | aper => rfl
    | _ => exact absurd h (by decide)
  rw [Record.value, noFraction, Nat.cast_zero, zero_div, add_zero]

/-- The lane rules give the exact values of R90 for the numbers of the 18 bytes on the bus. -/
theorem decodesTo_recordOf {bus : Bus} {b : Nat → Nat} (hb : ∀ k < 18, (busByte bus k).toNat = b k) :
    DecodesTo b (recordOf bus) := by
  have raw (x : Nat) (hx : x < 18) : ((raw8 (busByte bus x)).toNat : ℚ) = b x := by rw [raw8_eq, hb x hx]
  have fix (x y : Nat) (hx : x < 18) (hy : y < 18) :
      (fix100 (busByte bus x) (busByte bus y)).value 100 = b x + b y / 100 := by
    rw [fix100_value_eq_add, hb x hx, hb y hy]
  have le16 (x y : Nat) (hx : x < 18) (hy : y < 18) :
      ((compose16 (busByte bus x) (busByte bus y)).toNat : ℚ) = b x + 256 * b y := by
    rw [compose16_rat, hb x hx, hb y hy]
  exact {
    info := (value_of_unscaled _ rfl).trans (raw 0 (by decide))
    temperature := fix 1 2 (by decide) (by decide)
    humidity := fix 3 4 (by decide) (by decide)
    airPressure := (scale10_value _).trans (congrArg (· / 10) (le16 5 6 (by decide) (by decide)))
    acceleration := (value_of_unscaled _ rfl).trans (raw 7 (by decide))
    battery := (scale100_value _).trans (congrArg (· / 100) (le16 8 9 (by decide) (by decide)))
    cpuTemperature := fix 10 11 (by decide) (by decide)
    significantWaveHeight := (value_of_unscaled _ rfl).trans (le16 12 13 (by decide) (by decide))
    averageWaveHeight := (value_of_unscaled _ rfl).trans (le16 14 15 (by decide) (by decide))
    averagePeriod := (value_of_unscaled _ rfl).trans (le16 16 17 (by decide) (by decide)) }

/-- The outcome of an operand is the one R90 gives, where the bytes of an accepted frame are the numbers `b k`. -/
theorem outcomeFor_outcomeOf {len : Nat} {bus : Bus} {b : Nat → Nat}
    (hb : 18 ≤ len → ∀ k < 18, (busByte bus k).toNat = b k) : OutcomeFor len b (outcomeOf len bus) := by
  by_cases h : len < 18
  · rw [OutcomeFor, if_pos h, outcomeOf_of_lt h]
  · rw [OutcomeFor, if_neg h]
    have hlen : 18 ≤ len := Nat.le_of_not_lt h
    exact ⟨recordOf bus, outcomeOf_of_ge hlen bus, decodesTo_recordOf (hb hlen), recordOf_inRange bus⟩

/-! ### What the outcome depends on -/

/-- The outcome as a function of the guard alone and the 18 bytes (44_decode.md R91). -/
def outcomeOfGuard (short : Bool) (bus : Bus) : TxOutcome :=
  if short then .error .malformedFrame else .ok (recordOf bus)

theorem outcomeOf_eq_outcomeOfGuard (len : Nat) (bus : Bus) :
    outcomeOf len bus = outcomeOfGuard (decide (len < 18)) bus := by
  simp only [outcomeOf, outcomeOfGuard, decide_eq_true_eq]

/-- A lane's numbers depend on the bytes at the lane's offsets only. -/
theorem portsOfBytes_congr {l : Lane} {b b' : Nat → Nat} (h : ∀ k ∈ l.offsets, b k = b' k) :
    portsOfBytes b l = portsOfBytes b' l := by
  cases l <;> simp only [Lane.offsets, List.forall_mem_cons] at h <;>
    simp only [portsOfBytes, h]

/-- Frames that agree on a lane's bytes give the same numbers on that lane's ports. -/
theorem recordOf_ports_congr {l : Lane} {bus bus' : Bus} (h : ∀ k ∈ l.offsets, busByte bus k = busByte bus' k) :
    (recordOf bus).ports l = (recordOf bus').ports l := by
  rw [recordOf_ports, recordOf_ports]
  exact portsOfBytes_congr fun k hk => congrArg BitVec.toNat (h k hk)

/-! ### Record or none -/

theorem outcomeOf_record (len : Nat) (bus : Bus) :
    (outcomeOf len bus).record = if len < 18 then none else some (recordOf bus) := by
  by_cases h : len < 18
  · rw [outcomeOf_of_lt h, if_pos h, TxOutcome.record]
  · rw [outcomeOf_of_ge (Nat.le_of_not_lt h), if_neg h, TxOutcome.record]

/-- A record is made exactly when all ten result fields are written (44_decode.md R92). -/
theorem complete_iff_all_written (f : Fields) : (∃ r, f.complete = some r) ↔
    (f.info.isSome ∧ f.temperature.isSome ∧ f.humidity.isSome ∧ f.airPressure.isSome ∧ f.acceleration.isSome ∧
      f.battery.isSome ∧ f.cpuTemperature.isSome ∧ f.significantWaveHeight.isSome ∧ f.averageWaveHeight.isSome ∧
      f.averagePeriod.isSome) := by
  constructor
  · rintro ⟨r, h⟩
    rw [complete_eq_some h]
    exact ⟨rfl, rfl, rfl, rfl, rfl, rfl, rfl, rfl, rfl, rfl⟩
  · obtain ⟨_, _, _, _, _, _, _, _, _, _⟩ := f
    simp only [Option.isSome_iff_exists]
    rintro ⟨⟨_, rfl⟩, ⟨_, rfl⟩, ⟨_, rfl⟩, ⟨_, rfl⟩, ⟨_, rfl⟩, ⟨_, rfl⟩, ⟨_, rfl⟩, ⟨_, rfl⟩, ⟨_, rfl⟩, ⟨_, rfl⟩⟩
    exact ⟨_, rfl⟩

end Sys2Proof.Machine
end

section
/-! SUPPORT. A cycle that presents an operand as one equation, and what of a presented frame stands on the bus. -/

namespace Sys2Proof.Machine

/-- A cycle whose length fits its port delivers the outcome of its operand. -/
theorem runCycle_of_onLenPort {i : InPorts} {s : State} (hr : resetAsserted s.params i = false)
    (hv : i.inValid = true) (hp : s.params.onLenPort i.inLen = true) :
    runCycle i s = .next (s.deliver (outcomeOf i.inLen i.inFrame)) := by
  have hd : decodeFrame s.params i.operand = .ok (.decode i.inLen i.inFrame) := if_pos hp
  rw [runCycle_of_ok hr hv hd, exec_decode]

/-- A cycle of any of the three kinds answers, as long as its length fits its port. -/
theorem exists_runCycle_next {i : InPorts} {s : State} (hp : s.params.onLenPort i.inLen = true) :
    ∃ t, runCycle i s = .next t := by
  cases hr : resetAsserted s.params i with
  | true => exact ⟨_, runCycle_of_reset hr⟩
  | false =>
    cases hv : i.inValid with
    | true => exact ⟨_, runCycle_of_onLenPort hr hv hp⟩
    | false => exact ⟨_, runCycle_of_idle hr hv⟩

/-- In a state of the invariant the coming cycle's length fits its port, past the end of the input too. -/
theorem Inv.onLenPort_currentPorts {s : State} (h : Inv s) : s.params.onLenPort s.currentPorts.inLen = true := by
  rw [State.currentPorts]
  cases hi : s.inputs with
  | nil => exact decide_eq_true (Nat.two_pow_pos s.params.lenW)
  | cons i rest => exact h.inputs i (hi ▸ List.mem_cons_self)

/-- A block with LATENCY = 0 has nothing in flight (70_reset_and_hazards.md R126). -/
theorem Inv.inflight_eq_nil {s : State} (h : Inv s) (hl : s.params.latency = 0) : s.inflight = [] :=
  List.eq_nil_of_length_eq_zero (h.inflight.trans hl)

/-- A step on a presented frame delivers the frame's outcome: no reset, and a length saturated to its port. -/
theorem step_of_presentFrame {s : State} {pad : Bus} {frame : List Byte} {rest : List InPorts} (hp : s.params.wf)
    (h : s.inputs = presentFrame s.params pad frame :: rest) :
    step s = .next ({ s with inputs := rest }.deliver (outcomeOf frame.length (frameOnBus pad frame))) := by
  rw [step_of_inputs_cons h, ← outcomeOf_saturateLen hp]
  exact runCycle_of_onLenPort (Bool.and_false _) rfl (saturateLen_onLenPort s.params frame.length)

/-- The first 18 bytes of a long enough frame stand on the bus, whatever the padding (20_memory.md R40). -/
theorem busByte_frameOnBus {frame : List Byte} (h : 18 ≤ frame.length) (pad : Bus) {k : Nat} (hk : k < 18) :
    busByte (frameOnBus pad frame) k = frame.getD k 0 := by
  have hrange : k < (List.range frameBytes).length := by rwa [List.length_range]
  have hframe : k < frame.length := Nat.lt_of_lt_of_le hk h
  rw [frameOnBus, busByte_packBus _ k hk, List.getD_eq_getElem _ _ (by rwa [List.length_map]), List.getElem_map,
    List.getElem_range, List.getD_eq_getElem _ _ hframe, List.getD_eq_getElem _ _ hframe]

end Sys2Proof.Machine
end

section
/-! PROOFS. The statements of the family 44_decode. -/

namespace Sys2Proof.Machine

/-- Settles O16: DECODE delivers the outcome of its operand, and that is the one R90 gives. -/
theorem decodeDeliversTheRuleOfR90 : Obligations.DecodeDeliversTheRuleOfR90 := by
  intro len bus s
  exact ⟨outcomeOf len bus, _, exec_decode len bus s, delivers_deliver s _, State.deliver_fields s _,
    outcomeFor_outcomeOf fun _ _ _ => rfl⟩

/-- Settles O21: the outcome looks at the length through the guard only, and a lane's numbers at the lane's own bytes. -/
theorem outcomeIsAFunctionOfTheOperand : Obligations.OutcomeIsAFunctionOfTheOperand := by
  refine ⟨outcomeOfGuard, fun len bus s => ?_, fun l bus bus' h => ?_⟩
  · rw [← outcomeOf_eq_outcomeOfGuard]
    exact ⟨_, exec_decode len bus s, delivers_deliver s _, State.deliver_fields s _⟩
  · exact ⟨recordOf bus, recordOf bus', rfl, rfl, recordOf_ports_congr h⟩

/-- Settles O22: the guard decides whether the outcome has a record, and the ports show the record whole or not at all. -/
theorem allTenFieldsOrNone : Obligations.AllTenFieldsOrNone := by
  refine ⟨fun len bus s => ⟨outcomeOf len bus, _, exec_decode len bus s, delivers_deliver s _,
    State.deliver_fields s _, fun h => ?_, fun h => ⟨recordOf bus, ?_⟩, fun hq => ?_⟩, complete_iff_all_written⟩
  · rw [outcomeOf_record, if_pos h]
  · rw [outcomeOf_record, if_neg (Nat.not_lt.mpr h)]
  · have hout := (delivers_deliver s (outcomeOf len bus)).out_of_empty hq
    rw [State.fieldPortsPresent_eq, State.outRecord, hout, Option.bind_some, outcomeOf_record]
    by_cases h : len < 18
    · rw [if_pos h, decide_eq_false (Nat.not_le.mpr h), Option.isSome_none]
    · rw [if_neg h, decide_eq_true (Nat.le_of_not_lt h), Option.isSome_some]

/-- Settles O36: the invariant has every coming length fit its port, and then the cycle answers. -/
theorem blockNeverStops : Obligations.BlockNeverStops := by
  intro s hs
  exact exists_runCycle_next hs.onLenPort_currentPorts

/-- Settles O37: the step delivers the outcome of the frame's length and of what stands on the bus, which for an accepted
frame are the frame's own bytes; with nothing in flight it is on the ports at once. -/
theorem presentedFrameGetsItsOutcome : Obligations.PresentedFrameGetsItsOutcome := by
  intro s pad frame rest hs hl hi
  have hd := delivers_deliver { s with inputs := rest } (outcomeOf frame.length (frameOnBus pad frame))
  refine ⟨_, _, step_of_presentFrame hs.params hi, hd.out_of_empty (hs.inflight_eq_nil hl), ?_, hd.inputs, hd.params⟩
  exact outcomeFor_outcomeOf fun hlong k hk => congrArg BitVec.toNat (busByte_frameOnBus hlong pad hk)

end Sys2Proof.Machine
end

section
/-! SUPPORT. MalformedFrame against the length, and the next state written out where nothing is in flight: after a
delivery, and after a step on a presented frame. -/

namespace Sys2Proof.Machine

/-- The outcome is MalformedFrame exactly for a short frame (60_exceptions.md R100). -/
theorem outcomeOf_eq_malformedFrame_iff (len : Nat) (bus : Bus) :
    outcomeOf len bus = .error .malformedFrame ↔ len < 18 := by
  refine ⟨fun h => ?_, fun h => outcomeOf_of_lt h bus⟩
  have hflag := outcomeOf_malformed len bus
  rw [h] at hflag
  exact decide_eq_true_iff.mp hflag.symm

/-- DECODE of a short frame delivers MalformedFrame, whatever is on the bus. -/
theorem exec_decode_of_lt {len : Nat} (h : len < 18) (bus : Bus) (s : State) :
    exec (.decode len bus) s = .next (s.deliver (.error .malformedFrame)) := by
  rw [exec_decode, outcomeOf_of_lt h]

/-- With nothing in flight a delivery changes the output ports and gives up the result fields, no more. -/
theorem deliver_of_empty {s : State} (hq : s.inflight = []) (o : TxOutcome) :
    s.deliver o = { s with fields := Fields.empty, out := some o } := by
  obtain ⟨_, _, _, _, _⟩ := s
  cases hq
  rfl

/-- In a block with nothing in flight the state after a presented frame is its input, its parameters and the frame's
outcome: of the fields and the output ports before nothing is left (60_exceptions.md R107). -/
theorem step_of_presentFrame_of_empty {s : State} {pad : Bus} {frame : List Byte} {rest : List InPorts}
    (hp : s.params.wf) (hq : s.inflight = []) (h : s.inputs = presentFrame s.params pad frame :: rest) :
    step s = .next { s with
      inputs := rest, fields := Fields.empty, out := some (outcomeOf frame.length (frameOnBus pad frame)) } := by
  rw [step_of_presentFrame hp h, deliver_of_empty (s := { s with inputs := rest }) hq]

/-- The outcome of a frame on the bus is the one R90 gives for the frame itself, whatever the padding. -/
theorem outcomeFor_frameOnBus (pad : Bus) (frame : List Byte) :
    OutcomeFor frame.length (byteOf frame) (outcomeOf frame.length (frameOnBus pad frame)) :=
  outcomeFor_outcomeOf fun hlong _ hk => congrArg BitVec.toNat (busByte_frameOnBus hlong pad hk)

end Sys2Proof.Machine
end

section
/-! PROOFS. The statements of the family 60_exceptions. -/

namespace Sys2Proof.Machine

/-- Settles O18: DECODE delivers the outcome of its operand, which is MalformedFrame by the length alone; a lane's
instruction only writes a result field. -/
theorem malformedFrameIffShort : Obligations.MalformedFrameIffShort := by
  refine ⟨fun len bus s => ?_, fun len bus bus' s h => ?_, fun i s hi => ?_⟩
  · exact ⟨outcomeOf len bus, _, exec_decode len bus s, delivers_deliver s _, outcomeOf_eq_malformedFrame_iff len bus⟩
  · rw [exec_decode_of_lt h, exec_decode_of_lt h]
  · obtain ⟨l, hl⟩ := Row.eq_lane_of_ne_decode hi
    exact ⟨_, exec_of_row_lane hl s, rfl, rfl⟩

/-- Settles O19: the short frame is one delivery, and with nothing in flight that delivery is the whole change; the ports
follow from the outcome on them. -/
theorem malformedFrameHasNoOtherEffect : Obligations.MalformedFrameHasNoOtherEffect := by
  intro len bus s h
  refine ⟨_, exec_decode_of_lt h bus s, delivers_deliver s _, State.deliver_fields s _, fun hq => ?_⟩
  rw [deliver_of_empty hq]
  exact ⟨rfl, rfl, rfl, State.outRecord_of_error rfl⟩

/-- Settles O38: the state after the first frame differs from the state without it in the output ports and the result
fields alone, and a step on a presented frame overwrites both. -/
theorem shortFrameLeavesNoTrace : Obligations.ShortFrameLeavesNoTrace := by
  intro s pad pad' short frame rest hs hl hshort hi
  have hq : s.inflight = [] := hs.inflight_eq_nil hl
  exact ⟨_, _, _, step_of_presentFrame_of_empty hs.params hq hi, congrArg some (outcomeOf_of_lt hshort _),
    step_of_presentFrame_of_empty hs.params hq rfl, rfl, outcomeFor_frameOnBus pad' frame,
    step_of_presentFrame_of_empty hs.params hq rfl⟩

end Sys2Proof.Machine
end

section
/-! SUPPORT. A run without reset as a queue (70_reset_and_hazards.md R126): each cycle puts what is on the input ports in
at the back and takes what the output ports show from the front. -/

namespace Sys2Proof.Machine

/-! ### What the coming cycles put into the pipeline -/

/-- The outcome of an operand (`outcomeOf`). -/
def outcomeOfOperand (op : Operand) : TxOutcome := outcomeOf op.len op.bus

/-- What a cycle without reset puts into the pipeline: the outcome of the operand it presents, or nothing. -/
def InPorts.contribution (i : InPorts) : Option TxOutcome := if i.inValid then some (outcomeOfOperand i.operand) else none

/-- What the cycles of the input put into the pipeline, and then `m` cycles past its end. -/
def State.coming (s : State) (m : Nat) : List (Option TxOutcome) :=
  s.inputs.map InPorts.contribution ++ List.replicate m none

/-- The coming cycle contributes first, and a cycle past the end of the input uses up one of the `m`. -/
theorem State.coming_eq_cons (s : State) {n m : Nat} (h : n + 1 ≤ m) :
    ∃ m', n ≤ m' ∧ s.coming m = s.currentPorts.contribution :: s.consumePorts.coming m' := by
  simp only [State.coming, State.currentPorts, State.consumePorts_inputs]
  cases hi : s.inputs with
  | nil =>
    obtain ⟨m', rfl⟩ := Nat.exists_eq_add_of_le' (Nat.le_of_add_left_le h)
    exact ⟨m', Nat.le_of_succ_le_succ h, rfl⟩
  | cons i rest => exact ⟨m, Nat.le_of_succ_le h, rfl⟩

/-! ### One cycle of a run without reset -/

/-- Past the end of the input nothing asserts `rst` either. -/
theorem State.noReset.currentPorts {s : State} (h : s.noReset) : resetAsserted s.params s.currentPorts = false := by
  rw [State.currentPorts]
  cases hi : s.inputs with
  | nil => exact Bool.and_false _
  | cons i rest => exact h i (hi ▸ List.mem_cons_self)

/-- A cycle of the pipeline leaves an input without reset. -/
theorem State.noReset.of_delivers {s t : State} {x : Option TxOutcome} (h : s.noReset)
    (hd : Delivers s.consumePorts x t) : t.noReset := by
  intro i hi
  rw [hd.inputs] at hi
  rw [hd.params]
  exact h i (List.mem_of_mem_tail hi)

/-- From every state of the invariant a step without reset is one cycle of the pipeline, with the contribution of the
coming cycle put in (R125, R126). -/
theorem exists_step_delivers {s : State} (hs : Inv s) (hr : s.noReset) :
    ∃ t, step s = .next t ∧ Delivers s.consumePorts s.currentPorts.contribution t := by
  rw [InPorts.contribution]
  cases hv : s.currentPorts.inValid with
  | true => exact ⟨_, runCycle_of_onLenPort hr.currentPorts hv hs.onLenPort_currentPorts, delivers_deliver _ _⟩
  | false => exact ⟨_, runCycle_of_idle hr.currentPorts hv, delivers_advance _ _⟩

/-! ### The run -/

theorem deliveries_succ {s t : State} (h : step s = .next t) (n : Nat) :
    deliveries (n + 1) s = t.out :: deliveries n t := by
  rw [deliveries, h]

/-- The output ports show the front of the queue, whatever comes behind, and the rest stays. -/
theorem Delivers.queue_eq_cons {s t : State} {x : Option TxOutcome} (h : Delivers s x t)
    (later : List (Option TxOutcome)) : s.inflight ++ x :: later = t.out :: (t.inflight ++ later) := by
  rw [h.out, h.inflight]
  cases s.inflight with
  | nil => rfl
  | cons y q => exact congrArg (y :: ·) (List.append_cons q x later)

/-- Over `n` cycles without reset the output ports show the first `n` places of the queue: what is in flight, then the
contributions of the coming cycles, of which those past the end of the input may be any number that fills the queue. -/
theorem deliveries_eq_take (n : Nat) : ∀ {m : Nat} {s : State}, n ≤ m → Inv s → s.noReset →
    deliveries n s = (s.inflight ++ s.coming m).take n := by
  induction n with
  | zero => intros; rfl
  | succ n ih =>
    intro m s hm hs hr
    obtain ⟨t, hstep, hd⟩ := exists_step_delivers hs hr
    obtain ⟨m', hm', hcoming⟩ := s.coming_eq_cons hm
    have hlater : s.consumePorts.coming m' = t.coming m' := by rw [State.coming, State.coming, hd.inputs]
    have hqueue : s.inflight ++ s.coming m = t.out :: (t.inflight ++ t.coming m') := by
      rw [hcoming, hlater]
      exact hd.queue_eq_cons _
    rw [deliveries_succ hstep, ih hm' (stepKeepsInv s t hs hstep) (hr.of_delivers hd), hqueue, List.take_succ_cons]

end Sys2Proof.Machine
end

section
/-! PROOFS. The statements of the family 70_reset_and_hazards. -/

namespace Sys2Proof.Machine

/-- Settles O39: the function is `outcomeOf`, and the run takes the front of the queue cycle by cycle. -/
theorem deliveriesAreOutcomesInOrderAfterLatency : Obligations.DeliveriesAreOutcomesInOrderAfterLatency := by
  refine ⟨outcomeOfOperand, fun op => outcomeFor_outcomeOf fun _ _ _ => rfl, fun n s hs hr => ?_⟩
  rw [deliveries_eq_take n le_rfl hs hr, State.coming, ← List.append_assoc]
  rfl

end Sys2Proof.Machine
end
